-- ==== Sys2Proof/Word.lean ====
section
/-! DEFINITION. The word types of the block: bytes (channel values, shift registers, decoded bytes) and 32-bit words
(host register data, code units). 00_scope.md R8, R10, R11: every quantity is unsigned. -/

namespace Sys2Proof

/-- A channel value, a payload byte, a decoded byte: 8 bits unsigned (00_scope.md R8). -/
abbrev Byte := BitVec 8

/-- Host register data and payload code units: 32 bits unsigned (00_scope.md R10). -/
abbrev Word := BitVec 32

/-- The first byte of the end marker (30_encoding.md R92). -/
abbrev markerHi : Byte := 0xFF#8

/-- The second byte of the end marker (30_encoding.md R92). -/
abbrev markerLo : Byte := 0xFE#8

end Sys2Proof
end

