-- ==== Sys2Proof/Config.lean ====
section
/-! DEFINITION. What an implementation of the block fixes (the memory sizes, 00_scope.md R9), and the free values: what
the spec leaves unspecified. The free values are opaque: nothing in Lean can evaluate one or prove what it is. -/

namespace Sys2Proof

/-- The parameters of 00_scope.md R9, "taken by the model as arguments": plain data that State carries and no step
changes. `Fin` says their bounds, `0 <= GMAX <= 2^32` and `0 <= PMAX <= 2^32 - 1`. (log 1, DESIGN CHOICE: where they lie.) -/
structure Config where
  /-- GMAX, the number of channel bytes the grid memory holds -/
  gmax : Fin (2 ^ 32 + 1)
  /-- PMAX, the number of code units the payload memory holds -/
  pmax : Fin (2 ^ 32)
  deriving DecidableEq, Repr

namespace Config

/-- OMAX = floor(GMAX / 8), the number of bytes the output memory holds (00_scope.md R9). -/
def omax (c : Config) : Nat := c.gmax.val / 8

/-- The sizes 92_eei_decisions.md D23 suggests for tests; a DESIGN CHOICE for `State.reset` only (log 1). -/
def suggested : Config := { gmax := 12288, pmax := 4096 }

/-- FREE VALUE (log 2): the GMEM element at an address that nothing has written since reset number `epoch`
(20_memory.md R75: some definite value, not known). -/
opaque initialGmem (epoch addr : Nat) : Byte

/-- FREE VALUE (log 2): the same for PMEM (20_memory.md R75). -/
opaque initialPmem (epoch addr : Nat) : Word

/-- FREE VALUE (log 2): the same for OMEM (20_memory.md R75). -/
opaque initialOmem (epoch addr : Nat) : Byte

/-- FREE VALUE (log 4): what the refused read number `n` of 32 bits returns (20_memory.md R70, R71: any value, and it
may differ between reads, 93_implementation_defined.md V2). -/
opaque refusedWord (n : Nat) : Word

/-- FREE VALUE (log 4): what the refused read number `n` of 8 bits returns (20_memory.md R70, R71). -/
opaque refusedByte (n : Nat) : Byte

end Config
end Sys2Proof
end

