-- ==== Sys2Proof/Syntax.lean ====
section
/-! DEFINITION. The operations of the block as data: one constructor of `Instr` per row of spec/opcode_table.json, in the
table's order, and the raw forms the three formats of the table (CMD, XACT, USTEP) are read from. -/

namespace Sys2Proof

/-- The block's operations: 4 commands, 7 host transactions, 7 ENC and 4 DEC micro-operations. Addresses and register
numbers are natural numbers without a width (92_eei_decisions.md D30). -/
inductive Instr where
  /-- NOP, command word 0x00000000 (43_host_commands.md R204) -/
  | nop
  /-- ENC_START, command word 0x00000001 (R205) -/
  | encStart
  /-- DEC_START, command word 0x00000002 (R206) -/
  | decStart
  /-- CLEAR, command word 0x00000003 (R207) -/
  | clear
  /-- RegRead(r) (R201) -/
  | regRead (r : Nat)
  /-- RegWrite(r, v) (R202) -/
  | regWrite (r : Nat) (v : Word)
  /-- GRead(a) (R209) -/
  | gRead (a : Nat)
  /-- GWrite(a, v), the port is 8 bits wide (R210) -/
  | gWrite (a : Nat) (v : Byte)
  /-- PRead(a) (R211) -/
  | pRead (a : Nat)
  /-- PWrite(a, v) (R212) -/
  | pWrite (a : Nat) (v : Word)
  /-- ORead(a) (R213) -/
  | oRead (a : Nat)
  /-- E_VCHK, check one code unit (41_encoder.md R141) -/
  | eVchk
  /-- E_VFAIL, reject the payload (R142) -/
  | eVfail
  /-- E_VEND, validation passed (R143) -/
  | eVend
  /-- E_FETCH, load the next byte of the framed payload (R144) -/
  | eFetch
  /-- E_COMPLETE, the whole bitstream has been written (R145) -/
  | eComplete
  /-- E_TRUNC, the grid is exhausted and bits remain (R146) -/
  | eTrunc
  /-- E_WRITE, write one bit into one channel (R147) -/
  | eWrite
  /-- D_READ, read one LSB and shift it in (42_decoder.md R171) -/
  | dRead
  /-- D_MATCH, the window holds the marker (R172) -/
  | dMatch
  /-- D_BYTE, deliver the held byte and hold the new one (R173) -/
  | dByte
  /-- D_FINISH, the grid is exhausted, apply the tail rule (R174) -/
  | dFinish
  deriving DecidableEq, Repr

/-- The three formats of spec/opcode_table.json. -/
inductive Format where
  /-- a command word (30_encoding.md R99) -/
  | cmd
  /-- a host transaction (43_host_commands.md R200) -/
  | xact
  /-- a micro-operation (30_encoding.md R104) -/
  | ustep
  deriving DecidableEq, Repr

/-- The four commands, what a command word names (30_encoding.md R100). -/
inductive Command where
  | nop | encStart | decStart | clear
  deriving DecidableEq, Repr

/-- The four address spaces (20_memory.md R60). -/
inductive Space where
  | reg | gmem | pmem | omem
  deriving DecidableEq, Repr

/-- A host request as it is presented: "each names a space and an element index, and carries or returns one element"
(43_host_commands.md R200; the space as its code of 30_encoding.md R105). A transaction has no bit-level encoding
(92_eei_decisions.md D1); this record is the model's (log 8, DESIGN CHOICE). -/
structure Request where
  /-- the space code: 0 REG, 1 GMEM, 2 PMEM, 3 OMEM (30_encoding.md R105) -/
  space : BitVec 2
  /-- true: from host (a write); false: to host (a read) -/
  write : Bool
  /-- element index or register number -/
  addr : Nat
  /-- the element a write carries; 0 for a read -/
  data : Word
  deriving DecidableEq, Repr

/-- What ENC's selection of its next micro-operation looks at: the state code and the values the guards of
30_encoding.md R104 name. -/
structure EncSeq where
  /-- the code of ENC.STATE (R102) -/
  code : BitVec 3
  vidx : Word
  plen : Word
  /-- PMEM[VIDX] -/
  unit : Word
  bidx : BitVec 33
  /-- exhausted(ENC) -/
  exhausted : Bool
  deriving DecidableEq, Repr

/-- What DEC's selection of its next micro-operation looks at (30_encoding.md R104). -/
structure DecSeq where
  /-- the code of DEC.STATE (R103) -/
  code : BitVec 2
  bitcnt : BitVec 4
  holdv : Bool
  hold : Byte
  sr : Byte
  /-- exhausted(DEC) -/
  exhausted : Bool
  deriving DecidableEq, Repr

/-- The encoded form of an operation, one constructor per format of spec/opcode_table.json (USTEP once for each unit). -/
inductive Encoded where
  /-- format CMD: a 32-bit command word (30_encoding.md R99) -/
  | cmd (word : Word)
  /-- format XACT: a host transaction, identified by its kind -/
  | xact (req : Request)
  /-- format USTEP of ENC: state code and guard -/
  | encStep (q : EncSeq)
  /-- format USTEP of DEC: state code and guard -/
  | decStep (q : DecSeq)
  deriving DecidableEq, Repr

end Sys2Proof
end

