-- ==== Sys2Proof/WellFormed.lean ====
section
/-! DEFINITION. Which raw data stands for an operation. A host request is well formed when it is one of the seven
transactions of 43_host_commands.md R200: three checks, each with its own name. An `Instr` needs no check of its own: its
operand types hold exactly the operands the spec admits (a register number or an address is any natural number,
92_eei_decisions.md D30; GWrite carries a byte, R210). -/

namespace Sys2Proof

/-- "There is no transaction that writes OMEM" (43_host_commands.md R213). -/
def Request.spaceWritable (q : Request) : Bool := !(q.write && q.space == 3#2)

/-- The GMEM port is 8 bits wide, "so a channel value above 255 cannot be presented" (43_host_commands.md R210). -/
def Request.dataFits (q : Request) : Bool := !(q.write && q.space == 1#2 && decide (255 < q.data.toNat))

/-- A read carries no element (43_host_commands.md R200: the element goes to the host). -/
def Request.readIsBare (q : Request) : Bool := q.write || q.data == 0#32

/-- The request is one of the seven transactions. -/
def Request.wellFormed (q : Request) : Bool := q.spaceWritable && q.dataFits && q.readIsBare

end Sys2Proof
end

