-- ==== Sys2Proof/Decode.lean ====
section
/-! DEFINITION. Decoding: total on any command word, any host request and any sequencing state of a unit, rejecting by
name; then the encoder, written from the same tables (30_encoding.md R100, R104, R105). The hardware has no bytes of
code (R64, R68), so a command is read from its 32-bit word, not from bytes (log 16). -/

namespace Sys2Proof

/-- Why raw data is no operation. -/
inductive DecodeError where
  /-- a reserved command word (30_encoding.md R101) -/
  | reservedCommand
  /-- a host write to OMEM: no such transaction (43_host_commands.md R213) -/
  | omemWrite
  /-- a GMEM write with an element wider than 8 bits: not expressible (R210) -/
  | dataTooWide
  /-- a read that carries an element: no such transaction (R200) -/
  | readCarriesData
  /-- the unit's state code is not a running one: the unit has no step (30_encoding.md R104) -/
  | notRunning
  /-- a running state code with guards none of which holds: no run reaches it (R104, "Exactly one row applies to any
  running state"; log 10) -/
  | noRow
  deriving DecidableEq, Repr

/-- The command word decoder, `mask = 0xFFFFFFFF` (30_encoding.md R100, R101). -/
def decodeCommand (w : Word) : Except DecodeError Command :=
  if w = 0x00000000#32 then .ok .nop
  else if w = 0x00000001#32 then .ok .encStart
  else if w = 0x00000002#32 then .ok .decStart
  else if w = 0x00000003#32 then .ok .clear
  else .error .reservedCommand

/-- A command as the table's row for it. -/
def Command.instr : Command → Instr
  | .nop => .nop
  | .encStart => .encStart
  | .decStart => .decStart
  | .clear => .clear

/-- The transaction a host request asks for (43_host_commands.md R200, space codes of 30_encoding.md R105). -/
def decodeRequest (q : Request) : Except DecodeError Instr :=
  if q.spaceWritable = false then .error .omemWrite
  else if q.dataFits = false then .error .dataTooWide
  else if q.readIsBare = false then .error .readCarriesData
  else if q.space = 0#2 then (if q.write then .ok (.regWrite q.addr q.data) else .ok (.regRead q.addr))
  else if q.space = 1#2 then (if q.write then .ok (.gWrite q.addr (q.data.setWidth 8)) else .ok (.gRead q.addr))
  else if q.space = 2#2 then (if q.write then .ok (.pWrite q.addr q.data) else .ok (.pRead q.addr))
  else .ok (.oRead q.addr)

/-- ENC's rows of 30_encoding.md R104, guards "tested in this order"; state codes 1 VALIDATE, 2 FETCH, 3 WRITE (R102). -/
def decodeEnc (q : EncSeq) : Except DecodeError Instr :=
  if q.code = 1#3 then
    (if q.vidx = q.plen then .ok .eVend
     else if q.vidx.toNat < q.plen.toNat then (if 255 < q.unit.toNat then .ok .eVfail else .ok .eVchk)
     else .error .noRow)
  else if q.code = 2#3 then
    (if q.bidx.toNat = q.plen.toNat + 2 then .ok .eComplete
     else if q.bidx.toNat < q.plen.toNat + 2 then .ok .eFetch
     else .error .noRow)
  else if q.code = 3#3 then (if q.exhausted then .ok .eTrunc else .ok .eWrite)
  else .error .notRunning

/-- DEC's rows of 30_encoding.md R104; state code 1 SCANNING (R103). -/
def decodeDec (q : DecSeq) : Except DecodeError Instr :=
  if q.code = 1#2 then
    (if q.bitcnt.toNat = 8 then
       (if q.holdv = true ∧ q.hold = markerHi ∧ q.sr = markerLo then .ok .dMatch else .ok .dByte)
     else if q.bitcnt.toNat < 8 then (if q.exhausted then .ok .dFinish else .ok .dRead)
     else .error .noRow)
  else .error .notRunning

/-- The decoder of all three formats. -/
def decode : Encoded → Except DecodeError Instr
  | .cmd w => (decodeCommand w).map Command.instr
  | .xact q => decodeRequest q
  | .encStep q => decodeEnc q
  | .decStep q => decodeDec q

/-- The command word of a command (30_encoding.md R100). -/
def Command.word : Command → Word
  | .nop => 0x00000000#32
  | .encStart => 0x00000001#32
  | .decStart => 0x00000002#32
  | .clear => 0x00000003#32

/-- The encoder: command words from R100, requests from R105 and R200, and for a micro-operation its state code with the
least values that satisfy the guard of its row in R104. -/
def encode : Instr → Encoded
  | .nop => .cmd 0x00000000#32
  | .encStart => .cmd 0x00000001#32
  | .decStart => .cmd 0x00000002#32
  | .clear => .cmd 0x00000003#32
  | .regRead r => .xact { space := 0#2, write := false, addr := r, data := 0#32 }
  | .regWrite r v => .xact { space := 0#2, write := true, addr := r, data := v }
  | .gRead a => .xact { space := 1#2, write := false, addr := a, data := 0#32 }
  | .gWrite a v => .xact { space := 1#2, write := true, addr := a, data := v.setWidth 32 }
  | .pRead a => .xact { space := 2#2, write := false, addr := a, data := 0#32 }
  | .pWrite a v => .xact { space := 2#2, write := true, addr := a, data := v }
  | .oRead a => .xact { space := 3#2, write := false, addr := a, data := 0#32 }
  | .eVchk => .encStep { code := 1#3, vidx := 0#32, plen := 1#32, unit := 0#32, bidx := 0#33, exhausted := false }
  | .eVfail => .encStep { code := 1#3, vidx := 0#32, plen := 1#32, unit := 256#32, bidx := 0#33, exhausted := false }
  | .eVend => .encStep { code := 1#3, vidx := 0#32, plen := 0#32, unit := 0#32, bidx := 0#33, exhausted := false }
  | .eFetch => .encStep { code := 2#3, vidx := 0#32, plen := 0#32, unit := 0#32, bidx := 0#33, exhausted := false }
  | .eComplete => .encStep { code := 2#3, vidx := 0#32, plen := 0#32, unit := 0#32, bidx := 2#33, exhausted := false }
  | .eTrunc => .encStep { code := 3#3, vidx := 0#32, plen := 0#32, unit := 0#32, bidx := 0#33, exhausted := true }
  | .eWrite => .encStep { code := 3#3, vidx := 0#32, plen := 0#32, unit := 0#32, bidx := 0#33, exhausted := false }
  | .dRead => .decStep { code := 1#2, bitcnt := 0#4, holdv := false, hold := 0#8, sr := 0#8, exhausted := false }
  | .dMatch => .decStep { code := 1#2, bitcnt := 8#4, holdv := true, hold := markerHi, sr := markerLo, exhausted := false }
  | .dByte => .decStep { code := 1#2, bitcnt := 8#4, holdv := false, hold := 0#8, sr := 0#8, exhausted := false }
  | .dFinish => .decStep { code := 1#2, bitcnt := 0#4, holdv := false, hold := 0#8, sr := 0#8, exhausted := true }

/-- The format column of spec/opcode_table.json. -/
def Instr.format : Instr → Format
  | .nop => .cmd
  | .encStart => .cmd
  | .decStart => .cmd
  | .clear => .cmd
  | .regRead _ => .xact
  | .regWrite _ _ => .xact
  | .gRead _ => .xact
  | .gWrite _ _ => .xact
  | .pRead _ => .xact
  | .pWrite _ _ => .xact
  | .oRead _ => .xact
  | .eVchk => .ustep
  | .eVfail => .ustep
  | .eVend => .ustep
  | .eFetch => .ustep
  | .eComplete => .ustep
  | .eTrunc => .ustep
  | .eWrite => .ustep
  | .dRead => .ustep
  | .dMatch => .ustep
  | .dByte => .ustep
  | .dFinish => .ustep

/-- The format of an encoded form. -/
def Encoded.format : Encoded → Format
  | .cmd _ => .cmd
  | .xact _ => .xact
  | .encStep _ => .ustep
  | .decStep _ => .ustep

/-- What a word of the opcode table encodes, by the table's number of bits. 32 bits: a command word. A row of format
XACT has no bits, and the request of all zeros is RegRead(0). A row of format USTEP has a state code only, "rows of one
state are told apart by the guard": with every other sequencing element 0 (so that WIDTH = 0 and the cursor is exhausted)
ENC's codes 1, 2, 3 select E_VEND, E_FETCH, E_TRUNC, and DEC's code 1 selects D_FINISH. A code in a whole byte or in 3
bits is read as ENC's, in 2 bits as DEC's. (log 13, DESIGN CHOICE) -/
def tableWord (nbits w : Nat) : Option Encoded :=
  if nbits = 32 then (if w < 2 ^ 32 then some (.cmd (BitVec.ofNat 32 w)) else none)
  else if nbits = 0 then
    (if w = 0 then some (.xact { space := 0#2, write := false, addr := 0, data := 0#32 }) else none)
  else if nbits = 8 ∨ nbits = 3 then
    (if w < 8 then
      some (.encStep { code := BitVec.ofNat 3 w, vidx := 0#32, plen := 0#32, unit := 0#32, bidx := 0#33, exhausted := true })
     else none)
  else if nbits = 2 then
    (if w < 4 then
      some (.decStep { code := BitVec.ofNat 2 w, bitcnt := 0#4, holdv := false, hold := 0#8, sr := 0#8, exhausted := true })
     else none)
  else none

/-- The instruction the decoder reads from a word of the opcode table (none where it refuses). -/
def decodeTableWord (nbits w : Nat) : Option Instr :=
  match tableWord nbits w with
  | none => none
  | some e =>
    match decode e with
    | .ok i => some i
    | .error _ => none

end Sys2Proof
end

