-- ==== Sys2Proof/Machine/State.lean ====
section
/-! DEFINITION. The state of the block as plain data (10_state.md R20), with the model's own fields: the configuration, the
host's coming turns and received answers, and the two counters that pick free values. -/

namespace Sys2Proof.Machine

/-- ENC.STATE (10_state.md R32, codes in 30_encoding.md R102). -/
inductive EncState where
  | idle | validate | fetch | write | done | error
  deriving DecidableEq, Repr

/-- DEC.STATE (10_state.md R38, codes in 30_encoding.md R103). -/
inductive DecState where
  | idle | scanning | done
  deriving DecidableEq, Repr

/-- The raster cursor of a unit (10_state.md R37, R42, R43). -/
structure Cursor where
  row : BitVec 16
  col : BitVec 16
  ch : BitVec 2
  deriving DecidableEq, Repr

/-- The ENC datapath (10_state.md R32 to R37). -/
structure EncUnit where
  state : EncState
  /-- index of the next code unit to validate (R33) -/
  vidx : BitVec 32
  /-- index of the current byte of the framed payload (R34) -/
  bidx : BitVec 33
  /-- bits of the current byte already written (R35) -/
  bitcnt : BitVec 3
  /-- shift register (R36) -/
  sr : Byte
  cur : Cursor
  deriving DecidableEq, Repr

/-- The DEC datapath (10_state.md R38 to R42). -/
structure DecUnit where
  state : DecState
  /-- byte reconstructor (R39) -/
  sr : Byte
  bitcnt : BitVec 4
  /-- window register (R40) -/
  hold : Byte
  holdv : Bool
  /-- bytes delivered so far (R41) -/
  oidx : BitVec 32
  cur : Cursor
  deriving DecidableEq, Repr

/-- A memory of `w`-bit elements: the elements something has written, addresses strictly rising. An address that is not
listed holds no written value (log 3). -/
abbrev Mem (w : Nat) := List (Nat × BitVec w)

/-- One turn of the total order of steps (00_scope.md R14), as the outside world arranges it (log 5). -/
inductive Turn where
  /-- the running unit takes one step -/
  | unit
  /-- the host performs a transaction -/
  | host (req : Request)
  /-- the host's pseudo-operation WAIT (43_host_commands.md R215; log 11) -/
  | wait
  /-- reset (70_reset_and_hazards.md R280) -/
  | reset
  deriving DecidableEq, Repr

/-- What a read transaction returns to the host (43_host_commands.md R200). -/
inductive Reply where
  | word (v : Word)
  | byte (v : Byte)
  deriving DecidableEq, Repr

/-- The state of the block. -/
structure State where
  /-- GMAX and PMAX, constants of the machine that no step changes (00_scope.md R9; log 1) -/
  cfg : Config
  /-- host registers (10_state.md R21; CMD stores nothing, STATUS is computed) -/
  width : BitVec 16
  height : BitVec 16
  plen : Word
  olen : Word
  cause : BitVec 4
  faddr : Word
  fdata : Word
  /-- stored flags (10_state.md R46) -/
  trunc : Bool
  mfound : Bool
  taildrop : Bool
  /-- the two units -/
  enc : EncUnit
  dec : DecUnit
  /-- the three memories (20_memory.md R60) -/
  gmem : Mem 8
  pmem : Mem 32
  omem : Mem 8
  /-- MODEL: what is still to come, oldest first (log 5) -/
  inbox : List Turn
  /-- MODEL: what reads have returned, newest first (log 6) -/
  outbox : List Reply
  /-- MODEL: number of resets, picks the unknown memory contents (log 2) -/
  epoch : Nat
  /-- MODEL: number of refused reads answered, picks the next unspecified value (log 4) -/
  freeIx : Nat
  deriving DecidableEq, Repr

/-- Why the machine stops. The faults the SPEC names are not here: they are recorded in CAUSE and the machine goes on. -/
inductive Fault where
  /-- Raised by the meaning of a micro-operation performed in a state that 30_encoding.md R104 does not select it in: the
  spec gives it no effect there ("A unit in a state that is not running has no step"). `step` never raises it. Safe. -/
  | notSelected
  deriving DecidableEq, Repr

/-- Why a step has no meaning. -/
inductive Refusal where
  /-- An arm of exec without a meaning. No arm raises it in this model. Safe. -/
  | notModelled (mnemonic : String)
  /-- Raised by `step`: the host's request is none of the seven transactions (43_host_commands.md R200, "The host can do
  nothing else to the block"), or a unit runs in a sequencing state that no row of 30_encoding.md R104 covers, which no run
  reaches (log 8, log 10). Safe. -/
  | undecodable (e : DecodeError)
  deriving DecidableEq, Repr

/-- Cursor (0, 0, 0) (10_state.md R43). -/
abbrev Cursor.zero : Cursor := { row := 0#16, col := 0#16, ch := 0#2 }

/-- The ENC datapath after reset (10_state.md R49). -/
abbrev EncUnit.reset : EncUnit :=
  { state := .idle, vidx := 0#32, bidx := 0#33, bitcnt := 0#3, sr := 0#8, cur := Cursor.zero }

/-- The DEC datapath after reset (10_state.md R49). -/
abbrev DecUnit.reset : DecUnit :=
  { state := .idle, sr := 0#8, bitcnt := 0#4, hold := 0#8, holdv := false, oidx := 0#32, cur := Cursor.zero }

/-- A block of the given sizes after reset (10_state.md R49): every register 0, both units IDLE, nothing known of any
memory. The model's own fields are empty and 0 (log 2, 4, 5, 6). -/
def State.resetOf (cfg : Config) : State where
  cfg := cfg
  width := 0#16
  height := 0#16
  plen := 0#32
  olen := 0#32
  cause := 0#4
  faddr := 0#32
  fdata := 0#32
  trunc := false
  mfound := false
  taildrop := false
  enc := EncUnit.reset
  dec := DecUnit.reset
  gmem := []
  pmem := []
  omem := []
  inbox := []
  outbox := []
  epoch := 0
  freeIx := 0

/-- The machine right after reset (10_state.md R49), with the sizes 92_eei_decisions.md D23 suggests (log 1). -/
def State.reset : State := State.resetOf Config.suggested

end Sys2Proof.Machine
end

