-- ==== Sys2Proof/Machine/Flags.lean ====
section
/-! DEFINITION. State codes, cause codes, space codes, and the computed flags BUSY, ERR and the word STATUS. -/

namespace Sys2Proof

/-- Space codes, as FDATA records them (30_encoding.md R105). -/
def Space.code : Space → Word
  | .reg => 0#32
  | .gmem => 1#32
  | .pmem => 2#32
  | .omem => 3#32

namespace Machine

/-- ENC state codes (30_encoding.md R102). -/
def EncState.code : EncState → BitVec 3
  | .idle => 0#3
  | .validate => 1#3
  | .fetch => 2#3
  | .write => 3#3
  | .done => 4#3
  | .error => 5#3

/-- The running states of ENC (10_state.md R32). -/
def EncState.running : EncState → Bool
  | .idle => false
  | .validate => true
  | .fetch => true
  | .write => true
  | .done => false
  | .error => false

/-- DEC state codes (30_encoding.md R103). -/
def DecState.code : DecState → BitVec 2
  | .idle => 0#2
  | .scanning => 1#2
  | .done => 2#2

/-- The running state of DEC (10_state.md R38). -/
def DecState.running : DecState → Bool
  | .idle => false
  | .scanning => true
  | .done => false

/-- The faults the block records (60_exceptions.md R251). -/
inductive Cause where
  | payloadEncoding | cmdBusy | cmdReserved | configRange | accessBusy | addrRange
  deriving DecidableEq, Repr

/-- Cause codes (60_exceptions.md R251). -/
def Cause.code : Cause → BitVec 4
  | .payloadEncoding => 1#4
  | .cmdBusy => 2#4
  | .cmdReserved => 3#4
  | .configRange => 4#4
  | .accessBusy => 5#4
  | .addrRange => 6#4

/-- BUSY (10_state.md R47). -/
def State.busy (s : State) : Bool := s.enc.state.running || s.dec.state.running

/-- A fault is latched; also the STATUS field ERR (10_state.md R23). -/
def State.err (s : State) : Bool := decide (s.cause ≠ 0#4)

/-- The STATUS word (10_state.md R23): 31:10 reserved, 9 ERR, 8 TAILDROP, 7 MFOUND, 6 TRUNC, 5:4 DEC_STATE,
3:1 ENC_STATE, 0 BUSY. -/
def State.status (s : State) : Word :=
  0#22 ++ (BitVec.ofBool s.err ++ (BitVec.ofBool s.taildrop ++ (BitVec.ofBool s.mfound ++ (BitVec.ofBool s.trunc ++
    (s.dec.state.code ++ (s.enc.state.code ++ BitVec.ofBool s.busy))))))

end Machine
end Sys2Proof
end

