-- ==== Sys2Proof/Machine/Operands.lean ====
section
/-! DEFINITION. The operands of the operations: reading a memory element, reading a host register, the raster cursor with
the addresses it gives, the encoder's byte source, and what a unit's selection looks at. -/

namespace Sys2Proof.Machine

/-- The written value at an address, none where nothing has written it. -/
def Mem.lookup {w : Nat} : Mem w → Nat → Option (BitVec w)
  | [], _ => none
  | (k, v) :: m, a => if k = a then some v else Mem.lookup m a

/-- What an unlisted address reads as: no written value (log 3). -/
def Mem.unlisted {w : Nat} : Option (BitVec w) := none

/-- The canonical form: addresses strictly rising (an entry never equals `Mem.unlisted`). -/
def Mem.wf {w : Nat} : Mem w → Bool
  | [] => true
  | [_] => true
  | (a, _) :: (b, y) :: m => decide (a < b) && Mem.wf ((b, y) :: m)

/-- MemRead(GMEM, a, 1) (00_scope.md R13): the latest value written, else the unknown one (20_memory.md R72, R75). -/
def State.gmemRead (s : State) (a : Nat) : Byte := (Mem.lookup s.gmem a).getD (Config.initialGmem s.epoch a)

/-- MemRead(PMEM, a, 1). -/
def State.pmemRead (s : State) (a : Nat) : Word := (Mem.lookup s.pmem a).getD (Config.initialPmem s.epoch a)

/-- MemRead(OMEM, a, 1). -/
def State.omemRead (s : State) (a : Nat) : Byte := (Mem.lookup s.omem a).getD (Config.initialOmem s.epoch a)

/-- N = 3 * WIDTH * HEIGHT, "computed without wrap-around" (10_state.md R25, 43_host_commands.md R205). -/
def State.channels (s : State) : Nat := 3 * s.width.toNat * s.height.toNat

/-- What a host register holds (10_state.md R21 to R30), none for numbers 9 and above. -/
def State.regValue (s : State) : Nat → Option Word
  | 0 => some 0#32
  | 1 => some s.status
  | 2 => some (s.width.setWidth 32)
  | 3 => some (s.height.setWidth 32)
  | 4 => some s.plen
  | 5 => some s.olen
  | 6 => some (s.cause.setWidth 32)
  | 7 => some s.faddr
  | 8 => some s.fdata
  | _ => none

/-- exhausted(U) (10_state.md R43). -/
def Cursor.exhausted (c : Cursor) (w h : BitVec 16) : Bool := decide (w = 0#16 ∨ c.row = h)

/-- addr(U), a GMEM element address (10_state.md R43). -/
def Cursor.addr (c : Cursor) (w : BitVec 16) : Nat := (c.row.toNat * w.toNat + c.col.toNat) * 3 + c.ch.toNat

/-- advance(U), used only where the cursor is not exhausted (10_state.md R43). -/
def Cursor.advance (c : Cursor) (w : BitVec 16) : Cursor :=
  if c.ch.toNat < 2 then { c with ch := c.ch + 1#2 }
  else if c.col.toNat < w.toNat - 1 then { c with ch := 0#2, col := c.col + 1#16 }
  else { row := c.row + 1#16, col := 0#16, ch := 0#2 }

/-- pos(U), the linear position (10_state.md R44). -/
def Cursor.pos (c : Cursor) (w h : BitVec 16) : Nat :=
  if c.exhausted w h then 3 * w.toNat * h.toNat else c.addr w

/-- exhausted(ENC). -/
def State.encExhausted (s : State) : Bool := s.enc.cur.exhausted s.width s.height

/-- exhausted(DEC). -/
def State.decExhausted (s : State) : Bool := s.dec.cur.exhausted s.width s.height

/-- frame_byte(i), the encoder's byte source (41_encoder.md R140). -/
def State.frameByte (s : State) (i : Nat) : Byte :=
  if i < s.plen.toNat then (s.pmemRead i).setWidth 8
  else if i = s.plen.toNat then markerHi
  else markerLo

/-- What ENC's selection looks at in this state (30_encoding.md R104). -/
def State.encSeq (s : State) : EncSeq :=
  { code := s.enc.state.code
    vidx := s.enc.vidx
    plen := s.plen
    unit := s.pmemRead s.enc.vidx.toNat
    bidx := s.enc.bidx
    exhausted := s.encExhausted }

/-- What DEC's selection looks at in this state (30_encoding.md R104). -/
def State.decSeq (s : State) : DecSeq :=
  { code := s.dec.state.code
    bitcnt := s.dec.bitcnt
    holdv := s.dec.holdv
    hold := s.dec.hold
    sr := s.dec.sr
    exhausted := s.decExhausted }

/-- The micro-operation R104 selects for ENC. -/
def State.encSelected (s : State) : Except DecodeError Instr := decode (.encStep s.encSeq)

/-- The micro-operation R104 selects for DEC. -/
def State.decSelected (s : State) : Except DecodeError Instr := decode (.decStep s.decSeq)

end Sys2Proof.Machine
end

