-- ==== Sys2Proof/Machine/Ops.lean ====
section
/-! DEFINITION. The shared operations over state: writing an element, recording a fault (the hardware's exception entry)
and clearing it (the return), the host access rules, answering a read, starting a unit, and performing a micro-operation
only where it is selected. -/

namespace Sys2Proof.Machine

/-- Write one element, keeping the canonical form. -/
def Mem.store {w : Nat} : Mem w → Nat → BitVec w → Mem w
  | [], a, v => [(a, v)]
  | (k, x) :: m, a, v =>
    if a < k then (a, v) :: (k, x) :: m
    else if a = k then (a, v) :: m
    else (k, x) :: Mem.store m a v

/-- MemWrite(GMEM, a, 1, v) (00_scope.md R13). -/
def State.gmemWrite (s : State) (a : Nat) (v : Byte) : State := { s with gmem := Mem.store s.gmem a v }

/-- MemWrite(PMEM, a, 1, v). -/
def State.pmemWrite (s : State) (a : Nat) (v : Word) : State := { s with pmem := Mem.store s.pmem a v }

/-- MemWrite(OMEM, a, 1, v). -/
def State.omemWrite (s : State) (a : Nat) (v : Byte) : State := { s with omem := Mem.store s.omem a v }

/-- TAKING A FAULT: `raise F(faddr, fdata)` (60_exceptions.md R252). The first fault is kept; control goes nowhere and no
mode changes (R262). FADDR takes the low 32 bits (R258). -/
def State.raise (s : State) (c : Cause) (faddr : Nat) (fdata : Word) : State :=
  if s.cause = 0#4 then { s with cause := c.code, faddr := BitVec.ofNat 32 faddr, fdata := fdata } else s

/-- RETURN FROM A FAULT: the effect of an accepted CLEAR (43_host_commands.md R207, 60_exceptions.md R263). -/
def State.clearAll (s : State) : State :=
  { s with
    enc := { s.enc with state := .idle }
    dec := { s.dec with state := .idle }
    trunc := false
    mfound := false
    taildrop := false
    cause := 0#4
    faddr := 0#32
    fdata := 0#32 }

/-- The fault a host access to element `a` of a space of `size` elements is refused with, if any: BUSY first, then range
(43_host_commands.md R200, 60_exceptions.md R260). -/
def State.accessFault (s : State) (a size : Nat) : Option Cause :=
  if s.busy then some .accessBusy else if size ≤ a then some .addrRange else none

/-- A read returns a 32-bit element to the host (log 6). -/
def State.replyWord (s : State) (v : Word) : State := { s with outbox := .word v :: s.outbox }

/-- A read returns an 8-bit element to the host (log 6). -/
def State.replyByte (s : State) (v : Byte) : State := { s with outbox := .byte v :: s.outbox }

/-- A 32-bit read is refused: the fault is recorded, the value returned is any value (20_memory.md R70, R71; log 4). -/
def State.refuseWord (s : State) (c : Cause) (a : Nat) (sp : Space) : State :=
  { (s.raise c a sp.code).replyWord (Config.refusedWord s.freeIx) with freeIx := s.freeIx + 1 }

/-- An 8-bit read is refused (20_memory.md R70, R71; log 4). -/
def State.refuseByte (s : State) (c : Cause) (a : Nat) (sp : Space) : State :=
  { (s.raise c a sp.code).replyByte (Config.refusedByte s.freeIx) with freeIx := s.freeIx + 1 }

/-- What an ENC_START reached by dispatch does (43_host_commands.md R205). -/
def State.startEnc (s : State) : State :=
  if s.cfg.gmax.val < s.channels ∨ s.cfg.pmax.val < s.plen.toNat then s.raise .configRange 0 0x00000001#32
  else
    { s with
      enc := { state := .validate, vidx := 0#32, bidx := 0#33, bitcnt := 0#3, sr := 0#8, cur := Cursor.zero }
      trunc := false }

/-- What a DEC_START reached by dispatch does (43_host_commands.md R206). -/
def State.startDec (s : State) : State :=
  if s.cfg.gmax.val < s.channels then s.raise .configRange 0 0x00000002#32
  else
    { s with
      dec :=
        { state := .scanning, sr := 0#8, bitcnt := 0#4, hold := 0#8, holdv := false, oidx := 0#32, cur := Cursor.zero }
      olen := 0#32
      mfound := false
      taildrop := false }

/-- Command dispatch, what a write of `v` to CMD does (43_host_commands.md R203, its seven lines in order). -/
def State.dispatch (s : State) (v : Word) : State :=
  if s.busy then s.raise .cmdBusy 0 v
  else
    match decodeCommand v with
    | .ok .clear => s.clearAll
    | .ok .nop => s
    | .ok .encStart => if s.err then s else s.startEnc
    | .ok .decStart => if s.err then s else s.startDec
    | .error _ => if s.err then s else s.raise .cmdReserved 0 v

/-- Reset, "one atomic step" in any state (70_reset_and_hazards.md R280): every register, flag and datapath element to its
value of 10_state.md R49, the memories to unknown contents (R282: a new epoch). The configuration, and what stands
outside the block (the host's turns and answers), stay (log 15). -/
def State.hostReset (s : State) : State :=
  { State.resetOf s.cfg with inbox := s.inbox, outbox := s.outbox, epoch := s.epoch + 1, freeIx := s.freeIx }

/-- Perform an ENC micro-operation where 30_encoding.md R104 selects it; elsewhere it has no effect to give (log 9). -/
def encStep (i : Instr) (effect : State → State) (s : State) : Host.Outcome State Fault Refusal :=
  if s.encSelected = .ok i then .next (effect s) else .fault .notSelected

/-- Perform a DEC micro-operation where 30_encoding.md R104 selects it (log 9). -/
def decStep (i : Instr) (effect : State → State) (s : State) : Host.Outcome State Fault Refusal :=
  if s.decSelected = .ok i then .next (effect s) else .fault .notSelected

end Sys2Proof.Machine
end

