-- ==== Sys2Proof/Machine/Command.lean ====
section
/-! DEFINITION. The four commands (43_host_commands.md R203 to R207). A command is a RegWrite to CMD of its word
(10_state.md R22), so each meaning is command dispatch on that word (log 14). -/

namespace Sys2Proof.Machine

/-- NOP (R204). -/
def execNop (s : State) : Host.Outcome State Fault Refusal := .next (s.dispatch Command.nop.word)

/-- ENC_START (R205). -/
def execEncStart (s : State) : Host.Outcome State Fault Refusal := .next (s.dispatch Command.encStart.word)

/-- DEC_START (R206). -/
def execDecStart (s : State) : Host.Outcome State Fault Refusal := .next (s.dispatch Command.decStart.word)

/-- CLEAR (R207). -/
def execClear (s : State) : Host.Outcome State Fault Refusal := .next (s.dispatch Command.clear.word)

end Sys2Proof.Machine
end

