-- ==== Sys2Proof/Machine/Decoder.lean ====
section
/-! DEFINITION. The four micro-operations of the decoder unit (42_decoder.md R171 to R174). `decStep` performs one only
in a state whose row of 30_encoding.md R104 selects it. -/

namespace Sys2Proof.Machine

/-- D_READ (R171). -/
def execDRead (s : State) : Host.Outcome State Fault Refusal :=
  decStep .dRead
    (fun s =>
      let bit := (s.gmemRead (s.dec.cur.addr s.width)).getLsbD 0
      { s with
        dec :=
          { s.dec with
            sr := (s.dec.sr <<< 1) ||| (BitVec.ofBool bit).setWidth 8
            bitcnt := s.dec.bitcnt + 1#4
            cur := s.dec.cur.advance s.width } }) s

/-- D_MATCH (R172). -/
def execDMatch (s : State) : Host.Outcome State Fault Refusal :=
  decStep .dMatch
    (fun s => { s with mfound := true, olen := s.dec.oidx, dec := { s.dec with state := .done } }) s

/-- Deliver the held byte, `OMEM[OIDX] <- HOLD; OIDX <- OIDX + 1` (R173, R174). -/
def State.deliver (s : State) : State :=
  { s.omemWrite s.dec.oidx.toNat s.dec.hold with dec := { s.dec with oidx := s.dec.oidx + 1#32 } }

/-- D_BYTE (R173). -/
def execDByte (s : State) : Host.Outcome State Fault Refusal :=
  decStep .dByte
    (fun s =>
      let t := if s.dec.holdv then s.deliver else s
      { t with dec := { t.dec with hold := s.dec.sr, holdv := true, bitcnt := 0#4 } }) s

/-- D_FINISH (R174). -/
def execDFinish (s : State) : Host.Outcome State Fault Refusal :=
  decStep .dFinish
    (fun s =>
      let t := if s.dec.holdv = true ∧ s.dec.hold ≠ markerHi then s.deliver else s
      { t with
        olen := t.dec.oidx
        taildrop := s.taildrop || (s.dec.holdv && decide (s.dec.hold = markerHi))
        dec := { t.dec with state := .done } }) s

end Sys2Proof.Machine
end

