-- ==== Sys2Proof/Machine/Reference.lean ====
section
/-! DEFINITION. The pure functions the units realise (40_reference_functions.md R120 to R131, 30_encoding.md R90): what
`encode` produces and what `decode` returns. The machine uses `setLsb`; the rest is what claims about it speak of. -/

namespace Sys2Proof.Ref

/-- One byte becomes eight bits, most significant first (30_encoding.md R90). -/
def bits8 (b : Byte) : List Bool :=
  [b.getLsbD 7, b.getLsbD 6, b.getLsbD 5, b.getLsbD 4, b.getLsbD 3, b.getLsbD 2, b.getLsbD 1, b.getLsbD 0]

/-- Eight bits become a byte: `q[0]*128 + ... + q[7]` (R120). -/
def byte8 (q0 q1 q2 q3 q4 q5 q6 q7 : Bool) : Byte :=
  BitVec.ofNat 8 (q0.toNat * 128 + q1.toNat * 64 + q2.toNat * 32 + q3.toNat * 16 + q4.toNat * 8 + q5.toNat * 4 +
    q6.toNat * 2 + q7.toNat)

/-- Every code unit is at most 255 (R121). -/
def validPayload (p : List Word) : Bool := p.all fun u => decide (u.toNat ≤ 255)

/-- A valid payload read as bytes (R121). -/
def payloadBytes (p : List Word) : List Byte := p.map fun u => u.setWidth 8

/-- The first offending index, `min { j | P[j] > 255 }` (R121); the length when there is none. -/
def firstBad (p : List Word) : Nat := p.findIdx fun u => decide (255 < u.toNat)

/-- The payload followed by the two marker bytes (R122). -/
def frame (t : List Byte) : List Byte := t ++ [markerHi, markerLo]

/-- The bits of the framed payload (R123). -/
def bitstream (t : List Byte) : List Bool := (frame t).flatMap bits8

/-- The place of a channel in the sequence (R124, 20_memory.md R61). -/
def gridLin (w r c k : Nat) : Nat := (r * w + c) * 3 + k

/-- `setlsb(v, bit) = (v & 0xFE) | bit` (R125). -/
def setLsb (v : Byte) (bit : Bool) : Byte := (v &&& 0xFE#8) ||| (BitVec.ofBool bit).setWidth 8

/-- A grid: dimensions and the channel values in scan order. -/
structure Grid where
  width : Nat
  height : Nat
  ch : List Byte
  deriving DecidableEq, Repr

/-- A grid of these dimensions has `3 * W * H` channels. -/
def Grid.wf (g : Grid) : Bool := decide (g.ch.length = 3 * g.width * g.height)

/-- Channel by channel, "if more bitstream bits remain, replace the channel's LSB with the next bitstream bit"; the rest
is left untouched (R126). -/
def embed : List Byte → List Bool → List Byte
  | [], _ => []
  | c :: cs, [] => c :: cs
  | c :: cs, b :: bs => setLsb c b :: embed cs bs

/-- `encode(g, T)` (R126). -/
def encodeGrid (g : Grid) (t : List Byte) : Grid := { g with ch := embed g.ch (bitstream t) }

/-- The whole bitstream, marker included, is embedded (R127). -/
def fits (g : Grid) (t : List Byte) : Bool := decide (8 * t.length + 16 ≤ g.ch.length)

/-- The LSB of every channel (R128). -/
def lsbs (g : Grid) : List Bool := g.ch.map fun c => c.getLsbD 0

/-- The whole bytes of a bit sequence, the bits left over are dropped (R129). -/
def groups : List Bool → List Byte
  | q0 :: q1 :: q2 :: q3 :: q4 :: q5 :: q6 :: q7 :: rest => byte8 q0 q1 q2 q3 q4 q5 q6 q7 :: groups rest
  | _ => []

/-- The two-byte window scan and the tail rule (R130). -/
def scan : List Byte → List Byte
  | [] => []
  | [b] => if b = markerHi then [] else [b]
  | b :: c :: rest => if b = markerHi ∧ c = markerLo then [] else b :: scan (c :: rest)

/-- The scan returned at the marker (what MFOUND reports, R133). -/
def scanFound : List Byte → Bool
  | [] => false
  | [_] => false
  | b :: c :: rest => if b = markerHi ∧ c = markerLo then true else scanFound (c :: rest)

/-- The scan dropped a tail byte 0xFF (what TAILDROP reports, R133). -/
def scanDropped : List Byte → Bool
  | [] => false
  | [b] => decide (b = markerHi)
  | b :: c :: rest => if b = markerHi ∧ c = markerLo then false else scanDropped (c :: rest)

/-- `decode(g) = scan(groups(lsbs(g)))` (R131). -/
def decodeGrid (g : Grid) : List Byte := scan (groups (lsbs g))

/-- The payload holds 0xFF immediately followed by 0xFE (44_properties.md, before R230). -/
def hasMarker : List Byte → Bool
  | [] => false
  | [_] => false
  | b :: c :: rest => (decide (b = markerHi) && decide (c = markerLo)) || hasMarker (c :: rest)

end Sys2Proof.Ref
end

