-- ==== Sys2Proof/Machine/Encoder.lean ====
section
/-! DEFINITION. The seven micro-operations of the encoder unit (41_encoder.md R141 to R147). `encStep` performs one only
in a state whose row of 30_encoding.md R104 selects it. -/

namespace Sys2Proof.Machine

/-- E_VCHK (R141). -/
def execEVchk (s : State) : Host.Outcome State Fault Refusal :=
  encStep .eVchk (fun s => { s with enc := { s.enc with vidx := s.enc.vidx + 1#32 } }) s

/-- E_VFAIL (R142): PAYLOAD_ENCODING, by the general recording rule R252 (log 12). -/
def execEVfail (s : State) : Host.Outcome State Fault Refusal :=
  encStep .eVfail
    (fun s =>
      let t := s.raise .payloadEncoding s.enc.vidx.toNat (s.pmemRead s.enc.vidx.toNat)
      { t with enc := { s.enc with state := .error } }) s

/-- E_VEND (R143). -/
def execEVend (s : State) : Host.Outcome State Fault Refusal :=
  encStep .eVend (fun s => { s with enc := { s.enc with state := .fetch } }) s

/-- E_FETCH (R144). -/
def execEFetch (s : State) : Host.Outcome State Fault Refusal :=
  encStep .eFetch
    (fun s => { s with enc := { s.enc with sr := s.frameByte s.enc.bidx.toNat, state := .write } }) s

/-- E_COMPLETE (R145). -/
def execEComplete (s : State) : Host.Outcome State Fault Refusal :=
  encStep .eComplete (fun s => { s with enc := { s.enc with state := .done } }) s

/-- E_TRUNC (R146). -/
def execETrunc (s : State) : Host.Outcome State Fault Refusal :=
  encStep .eTrunc (fun s => { s with enc := { s.enc with state := .done }, trunc := true }) s

/-- The ENC datapath after E_WRITE (R147): SR shifted, the cursor advanced, BITCNT and BIDX moved on. -/
def EncUnit.afterWrite (e : EncUnit) (w : BitVec 16) : EncUnit :=
  if e.bitcnt = 7#3 then
    { e with sr := e.sr <<< 1, cur := e.cur.advance w, bitcnt := 0#3, bidx := e.bidx + 1#33, state := .fetch }
  else { e with sr := e.sr <<< 1, cur := e.cur.advance w, bitcnt := e.bitcnt + 1#3 }

/-- E_WRITE (R147): `GMEM[addr(ENC)] <- (GMEM[addr(ENC)] & 0xFE) | SR[7]`. DEDUCED (log 19): this is R147's pseudocode;
its worked example (SR 0x48, bit 1) contradicts it, and R148 (d) and 95_test_vectors.md 2.2 agree with the pseudocode. -/
def execEWrite (s : State) : Host.Outcome State Fault Refusal :=
  encStep .eWrite
    (fun s =>
      let a := s.enc.cur.addr s.width
      { s.gmemWrite a (Ref.setLsb (s.gmemRead a) (s.enc.sr.getLsbD 7)) with enc := s.enc.afterWrite s.width }) s

end Sys2Proof.Machine
end

