-- ==== Sys2Proof/Machine/Transaction.lean ====
section
/-! DEFINITION. The seven host transactions (43_host_commands.md R201, R202, R209 to R213). -/

namespace Sys2Proof.Machine

/-- RegRead(r) (R201): STATUS (r = 1) is always allowed. -/
def execRegRead (r : Nat) (s : State) : Host.Outcome State Fault Refusal :=
  .next
    (if s.busy = true ∧ r ≠ 1 then s.refuseWord .accessBusy r .reg
     else
       match s.regValue r with
       | some v => s.replyWord v
       | none => s.refuseWord .addrRange r .reg)

/-- RegWrite(r, v) (R202). -/
def execRegWrite (r : Nat) (v : Word) (s : State) : Host.Outcome State Fault Refusal :=
  .next
    (if r = 0 then s.dispatch v
     else if s.busy then s.raise .accessBusy r Space.reg.code
     else if 9 ≤ r then s.raise .addrRange r Space.reg.code
     else if r = 2 then { s with width := v.setWidth 16 }
     else if r = 3 then { s with height := v.setWidth 16 }
     else if r = 4 then { s with plen := v }
     else s)

/-- GRead(a) (R209). -/
def execGRead (a : Nat) (s : State) : Host.Outcome State Fault Refusal :=
  .next
    (match s.accessFault a s.cfg.gmax.val with
     | some c => s.refuseByte c a .gmem
     | none => s.replyByte (s.gmemRead a))

/-- GWrite(a, v) (R210). -/
def execGWrite (a : Nat) (v : Byte) (s : State) : Host.Outcome State Fault Refusal :=
  .next
    (match s.accessFault a s.cfg.gmax.val with
     | some c => s.raise c a Space.gmem.code
     | none => s.gmemWrite a v)

/-- PRead(a) (R211). -/
def execPRead (a : Nat) (s : State) : Host.Outcome State Fault Refusal :=
  .next
    (match s.accessFault a s.cfg.pmax.val with
     | some c => s.refuseWord c a .pmem
     | none => s.replyWord (s.pmemRead a))

/-- PWrite(a, v) (R212). -/
def execPWrite (a : Nat) (v : Word) (s : State) : Host.Outcome State Fault Refusal :=
  .next
    (match s.accessFault a s.cfg.pmax.val with
     | some c => s.raise c a Space.pmem.code
     | none => s.pmemWrite a v)

/-- ORead(a) (R213). -/
def execORead (a : Nat) (s : State) : Host.Outcome State Fault Refusal :=
  .next
    (match s.accessFault a s.cfg.omax with
     | some c => s.refuseByte c a .omem
     | none => s.replyByte (s.omemRead a))

end Sys2Proof.Machine
end

