-- ==== Sys2Proof/Machine/Dispatch.lean ====
section
/-! DEFINITION. One arm per operation of the opcode table. -/

namespace Sys2Proof.Machine

/-- The meaning of an operation. -/
def exec (i : Instr) (s : State) : Host.Outcome State Fault Refusal :=
  match i with
  | .nop => Sys2Proof.Machine.execNop s
  | .encStart => Sys2Proof.Machine.execEncStart s
  | .decStart => Sys2Proof.Machine.execDecStart s
  | .clear => Sys2Proof.Machine.execClear s
  | .regRead r => Sys2Proof.Machine.execRegRead r s
  | .regWrite r v => Sys2Proof.Machine.execRegWrite r v s
  | .gRead a => Sys2Proof.Machine.execGRead a s
  | .gWrite a v => Sys2Proof.Machine.execGWrite a v s
  | .pRead a => Sys2Proof.Machine.execPRead a s
  | .pWrite a v => Sys2Proof.Machine.execPWrite a v s
  | .oRead a => Sys2Proof.Machine.execORead a s
  | .eVchk => Sys2Proof.Machine.execEVchk s
  | .eVfail => Sys2Proof.Machine.execEVfail s
  | .eVend => Sys2Proof.Machine.execEVend s
  | .eFetch => Sys2Proof.Machine.execEFetch s
  | .eComplete => Sys2Proof.Machine.execEComplete s
  | .eTrunc => Sys2Proof.Machine.execETrunc s
  | .eWrite => Sys2Proof.Machine.execEWrite s
  | .dRead => Sys2Proof.Machine.execDRead s
  | .dMatch => Sys2Proof.Machine.execDMatch s
  | .dByte => Sys2Proof.Machine.execDByte s
  | .dFinish => Sys2Proof.Machine.execDFinish s

end Sys2Proof.Machine
end

