-- ==== Sys2Proof/Machine/Fetch.lean ====
section
/-! DEFINITION. What the machine does next. There is no program counter and no instruction fetch (10_state.md R45): the next
step is the host's turn at the head of `inbox`, or the micro-operation the running unit's sequencing state selects (log 5,
log 7, log 11); and how the words of the opcode table are placed so that the next step runs them (log 13). -/

namespace Sys2Proof.Machine

/-- What the next step is. -/
inductive Fetched where
  /-- an operation, in its encoded form -/
  | op (e : Encoded)
  /-- a reset -/
  | reset
  /-- nothing: no unit runs and the host does nothing -/
  | idle
  deriving DecidableEq, Repr

/-- The step of the running unit; at most one runs (43_host_commands.md R208, log 10). -/
def State.unitFetch (s : State) : Fetched :=
  if s.enc.state.running then .op (.encStep s.encSeq)
  else if s.dec.state.running then .op (.decStep s.decSeq)
  else .idle

/-- The request RegRead(STATUS). -/
abbrev Request.readStatus : Request := { space := 0#2, write := false, addr := 1, data := 0#32 }

/-- The next step. WAIT lets the running unit move and reads STATUS when BUSY is 0 (43_host_commands.md R215, log 11).
With no turn listed the running unit moves (70_reset_and_hazards.md R294, log 5). -/
def State.fetch (s : State) : Fetched :=
  match s.inbox with
  | [] => s.unitFetch
  | .unit :: _ => s.unitFetch
  | .host q :: _ => .op (.xact q)
  | .wait :: _ => if s.busy then s.unitFetch else .op (.xact Request.readStatus)
  | .reset :: _ => .reset

/-- The turn the next step uses up is taken off the list; WAIT stays while BUSY. -/
def State.takeTurn (s : State) : State :=
  match s.inbox with
  | [] => s
  | .unit :: rest => { s with inbox := rest }
  | .host _ :: rest => { s with inbox := rest }
  | .wait :: rest => if s.busy then s else { s with inbox := rest }
  | .reset :: rest => { s with inbox := rest }

/-- The host's next turn is this request. -/
def State.withRequest (s : State) (q : Request) : State := { s with inbox := .host q :: s.inbox }

/-- ENC is in the state of this code, with the sequencing elements such that the code selects E_VEND, E_FETCH or E_TRUNC
(the reading of `tableWord`), and moves next. -/
def State.withEncCode (s : State) (c : BitVec 3) : State :=
  { s with
    enc :=
      { s.enc with
        state := if c = 1#3 then .validate else if c = 2#3 then .fetch else if c = 3#3 then .write else .idle
        vidx := s.plen
        bidx := 0#33
        cur := { s.enc.cur with row := s.height } }
    inbox := .unit :: s.inbox }

/-- DEC is in the state of this code, with the sequencing elements such that the code selects D_FINISH, and moves next. -/
def State.withDecCode (s : State) (c : BitVec 2) : State :=
  { s with
    enc := { s.enc with state := .idle }
    dec :=
      { s.dec with
        state := if c = 1#2 then .scanning else .idle
        bitcnt := 0#4
        cur := { s.dec.cur with row := s.height } }
    inbox := .unit :: s.inbox }

/-- The state with a word of the opcode table placed where the next step takes its operation from (log 13). A command
word is a RegWrite to CMD; a word that is no row's stands as a request that is no transaction. -/
def State.placeWord (s : State) (nbits w : Nat) : State :=
  match tableWord nbits w with
  | some (.cmd v) => s.withRequest { space := 0#2, write := true, addr := 0, data := v }
  | some (.xact q) => s.withRequest q
  | some (.encStep q) => s.withEncCode q.code
  | some (.decStep q) => s.withDecCode q.code
  | none => s.withRequest { space := 3#2, write := true, addr := 0, data := BitVec.ofNat 32 w }

end Sys2Proof.Machine
end

