-- ==== Sys2Proof/Machine/Step.lean ====
section
/-! DEFINITION. One step of the machine: one atomic state change (00_scope.md R14). -/

namespace Sys2Proof.Machine

/-- One step. The turn it uses is taken off `inbox` first; then the operation fetched runs, or reset happens, or nothing
does. What decodes to no operation is refused by name. -/
def step (s : State) : Host.Outcome State Fault Refusal :=
  match s.fetch with
  | .op e =>
    match decode e with
    | .ok i => exec i s.takeTurn
    | .error d => .refused (.undecodable d)
  | .reset => .next s.takeTurn.hostReset
  | .idle => .next s.takeTurn

/-- The state with that instruction standing where the next step takes it from. -/
def State.withFetchWord (s : State) (nbits w : Nat) : State := s.placeWord nbits w

end Sys2Proof.Machine
end

