-- ==== Sys2Proof/Machine/HostProgram.lean ====
section
/-! DEFINITION. The host notation and the pseudo-operations (43_host_commands.md R214 to R217) as lists of turns. They are
"documentation, not hardware: each expands into transactions" (92_eei_decisions.md D26); the machine does not use them. -/

namespace Sys2Proof.Machine

/-- The host registers by name (10_state.md R21). -/
inductive HostReg where
  | cmd | status | width | height | plen | olen | cause | faddr | fdata
  deriving DecidableEq, Repr

/-- Their numbers (10_state.md R21). -/
def HostReg.number : HostReg → Nat
  | .cmd => 0
  | .status => 1
  | .width => 2
  | .height => 3
  | .plen => 4
  | .olen => 5
  | .cause => 6
  | .faddr => 7
  | .fdata => 8

/-- `WR name, value` -/
def hostWR (r : HostReg) (v : Word) : Turn := .host { space := 0#2, write := true, addr := r.number, data := v }

/-- `RD name -> x` -/
def hostRD (r : HostReg) : Turn := .host { space := 0#2, write := false, addr := r.number, data := 0#32 }

/-- `CMD mnemonic` -/
def hostCMD (c : Command) : Turn := hostWR .cmd c.word

/-- `GW a, v` -/
def hostGW (a : Nat) (v : Byte) : Turn := .host { space := 1#2, write := true, addr := a, data := v.setWidth 32 }

/-- `GR a -> x` -/
def hostGR (a : Nat) : Turn := .host { space := 1#2, write := false, addr := a, data := 0#32 }

/-- `PW a, v` -/
def hostPW (a : Nat) (v : Word) : Turn := .host { space := 2#2, write := true, addr := a, data := v }

/-- `PR a -> x` -/
def hostPR (a : Nat) : Turn := .host { space := 2#2, write := false, addr := a, data := 0#32 }

/-- `OR a -> x` -/
def hostOR (a : Nat) : Turn := .host { space := 3#2, write := false, addr := a, data := 0#32 }

/-- `GWS a, [v0, v1, ...]` -/
def hostGWS (a : Nat) : List Byte → List Turn
  | [] => []
  | v :: vs => hostGW a v :: hostGWS (a + 1) vs

/-- `PWS a, [v0, v1, ...]` -/
def hostPWS (a : Nat) : List Word → List Turn
  | [] => []
  | v :: vs => hostPW a v :: hostPWS (a + 1) vs

/-- ENCODE (W, H, grid, text) (R216): up to the reading of STATUS, then the `back` first elements of GMEM read back, "if
wanted". -/
def hostEncode (w h : BitVec 16) (grid : List Byte) (text : List Word) (back : Nat) : List Turn :=
  [hostWR .width (w.setWidth 32), hostWR .height (h.setWidth 32)] ++ hostGWS 0 grid ++
    [hostWR .plen (BitVec.ofNat 32 text.length)] ++ hostPWS 0 text ++
    [hostCMD .encStart, .wait, hostRD .status] ++ (List.range back).map hostGR

/-- DECODE (W, H, grid) (R217): the host reads OLEN, and then `k` elements of OMEM, `k` being the OLEN it has read (what
the host does with an answer is outside the block, so `k` is an argument here; log 11). -/
def hostDecode (w h : BitVec 16) (grid : List Byte) (k : Nat) : List Turn :=
  [hostWR .width (w.setWidth 32), hostWR .height (h.setWidth 32)] ++ hostGWS 0 grid ++
    [hostCMD .decStart, .wait, hostRD .olen] ++ (List.range k).map hostOR

end Sys2Proof.Machine
end

