-- ==== Sys2Proof/Machine/View.lean ====
section
/-! DEFINITION. The source's data objects as the state holds them (10_state.md R20): the PixelGrid in GMEM under WIDTH and
HEIGHT, the Payload in PMEM under PLEN, the decoded text in OMEM under OLEN. Claims speak of the state through these. -/

namespace Sys2Proof.Machine

/-- The grid in GMEM: elements 0 to N - 1 in scan order (20_memory.md R61). -/
def State.grid (s : State) : Ref.Grid :=
  { width := s.width.toNat, height := s.height.toNat, ch := (List.range s.channels).map s.gmemRead }

/-- The payload's code units, `PMEM[0 .. PLEN)` (20_memory.md R62). -/
def State.payload (s : State) : List Word := (List.range s.plen.toNat).map s.pmemRead

/-- The decoded payload, `OMEM[0 .. OLEN)` (20_memory.md R63). -/
def State.decoded (s : State) : List Byte := (List.range s.olen.toNat).map s.omemRead

/-- The whole bytes of the grid's LSBs, `groups(lsbs(g))` (40_reference_functions.md R129). -/
def State.wholeBytes (s : State) : List Byte := Ref.groups (Ref.lsbs s.grid)

/-- The bitstream of the payload (40_reference_functions.md R123). -/
def State.stream (s : State) : List Bool := Ref.bitstream (Ref.payloadBytes s.payload)

/-- The encoder's bitstream cursor, `8 * BIDX + BITCNT` (10_state.md R34). -/
def State.streamPos (s : State) : Nat := 8 * s.enc.bidx.toNat + s.enc.bitcnt.toNat

end Sys2Proof.Machine
end

