-- ==== Sys2Proof/Safety.lean ====
section
/-! DEFINITION. What counts as a safe run, in the terms claims use: the invariant of the block, what it means that two
states agree on a part, and a run of several steps. -/

namespace Sys2Proof.Machine

/-- The ranges of a raster cursor (10_state.md R37, R42). -/
def Cursor.legal (c : Cursor) (w h : BitVec 16) : Prop :=
  c.row.toNat ≤ h.toNat ∧ c.col.toNat < max w.toNat 1 ∧ c.ch.toNat ≤ 2

/-- A memory is in canonical form and lists only addresses of its space (20_memory.md R60). -/
def Mem.within {w : Nat} (m : Mem w) (size : Nat) : Prop := Mem.wf m = true ∧ ∀ e ∈ m, e.1 < size

/-- Every code unit below `n` is at most 255 (40_reference_functions.md R121). -/
def State.unitsValid (s : State) (n : Nat) : Prop := ∀ j < n, (s.pmemRead j).toNat ≤ 255

/-- While ENC validates (41_encoder.md R140, R141; 10_state.md R33). -/
structure State.Validating (s : State) : Prop where
  vidx : s.enc.vidx.toNat ≤ s.plen.toNat
  checked : s.unitsValid s.enc.vidx.toNat
  fresh : s.enc.bidx = 0#33 ∧ s.enc.bitcnt = 0#3 ∧ s.enc.cur = Cursor.zero

/-- While ENC embeds (41_encoder.md R148 (a), (b), (d), (e); 10_state.md R34, R35, R37). -/
structure State.Embedding (s : State) : Prop where
  valid : s.unitsValid s.plen.toNat
  cursor : s.enc.cur.legal s.width s.height
  together : s.streamPos = s.enc.cur.pos s.width s.height
  bidx : s.enc.bidx.toNat ≤ s.plen.toNat + 2
  atFetch : s.enc.state = .fetch → s.enc.bitcnt = 0#3
  atWrite : s.enc.state = .write →
    s.enc.bidx.toNat < s.plen.toNat + 2 ∧
      s.enc.sr = s.frameByte s.enc.bidx.toNat <<< s.enc.bitcnt.toNat

/-- While DEC scans (42_decoder.md R170, R175 (a), (d); 10_state.md R27, R39 to R42). -/
structure State.Scanning (s : State) : Prop where
  bitcnt : s.dec.bitcnt.toNat ≤ 8
  cursor : s.dec.cur.legal s.width s.height
  together : s.dec.cur.pos s.width s.height = 8 * (s.dec.oidx.toNat + s.dec.holdv.toNat) + s.dec.bitcnt.toNat
  first : s.dec.holdv = false → s.dec.oidx = 0#32
  results : s.olen = 0#32 ∧ s.mfound = false ∧ s.taildrop = false

/-- The invariant of the block: it holds after reset, and every step of every agent keeps it. -/
structure State.Inv (s : State) : Prop where
  gmem : Mem.within s.gmem s.cfg.gmax.val
  pmem : Mem.within s.pmem s.cfg.pmax.val
  omem : Mem.within s.omem s.cfg.omax
  oneRuns : ¬(s.enc.state.running = true ∧ s.dec.state.running = true)
  causeLegal : s.cause.toNat ≤ 6
  causeClear : s.cause = 0#4 → s.faddr = 0#32 ∧ s.fdata = 0#32
  errorLatched : s.enc.state = .error → s.cause ≠ 0#4
  encFits : s.enc.state.running = true →
    s.channels ≤ s.cfg.gmax.val ∧ s.plen.toNat ≤ s.cfg.pmax.val ∧ s.trunc = false
  validating : s.enc.state = .validate → s.Validating
  embedding : s.enc.state = .fetch ∨ s.enc.state = .write → s.Embedding
  decFits : s.dec.state.running = true → s.channels ≤ s.cfg.gmax.val
  scanning : s.dec.state = .scanning → s.Scanning

/-- The next operation writes the command word of CLEAR to CMD: the CLEAR command itself, or the transaction
(43_host_commands.md R207). -/
def clears (i : Instr) : Bool := decide (i = .clear ∨ i = .regWrite 0 0x00000003#32)

/-- An operation of the host: a transaction or a command. -/
def hostOp (i : Instr) : Bool := decide (i.format ≠ .ustep)

/-- The registers that configure an operation are the same (10_state.md R24 to R26), and so are the block's sizes. -/
def State.SameConfig (s t : State) : Prop :=
  t.cfg = s.cfg ∧ t.width = s.width ∧ t.height = s.height ∧ t.plen = s.plen

/-- CAUSE, FADDR and FDATA are the same. -/
def State.SameFault (s t : State) : Prop := t.cause = s.cause ∧ t.faddr = s.faddr ∧ t.fdata = s.fdata

/-- OLEN and the three stored flags are the same. -/
def State.SameResults (s t : State) : Prop :=
  t.olen = s.olen ∧ t.trunc = s.trunc ∧ t.mfound = s.mfound ∧ t.taildrop = s.taildrop

/-- Every element of every memory reads the same. -/
def State.SameMemories (s t : State) : Prop :=
  (∀ a, t.gmemRead a = s.gmemRead a) ∧ (∀ a, t.pmemRead a = s.pmemRead a) ∧ ∀ a, t.omemRead a = s.omemRead a

/-- What is to come and what the host has been answered is the same (the model's own fields). -/
def State.SameHost (s t : State) : Prop :=
  t.inbox = s.inbox ∧ t.outbox = s.outbox ∧ t.epoch = s.epoch ∧ t.freeIx = s.freeIx

/-- Several steps, stopping where one answers no next state. -/
def runSteps : Nat → State → Host.Outcome State Fault Refusal
  | 0, s => .next s
  | k + 1, s =>
    match step s with
    | .next t => runSteps k t
    | .fault f => .fault f
    | .refused r => .refused r

end Sys2Proof.Machine
end

