-- ==== Sys2Proof/Certificates/Slice0/Obligations.lean ====
section
/-! DEFINITION. What is claimed of the block. Each statement cites the rule of spec/ it formalises; one that rests on a
choice of the model names the log entry. `State` has the model's own fields `outbox`, `freeIx`, `inbox` and `epoch`
besides the spec's state (log 2, 4, 5, 6): where a read is refused, the value the host gets is any value `v`. -/

open Sys2Proof Sys2Proof.Machine

/-! ### Reset, registers, STATUS -/

/-- 70_reset_and_hazards.md R280, 10_state.md R49: reset happens in any state, in one step, and leaves every register,
flag and datapath element at its value of the table, as the machine's first state has them. Nothing else the host can do
stops a running unit. The model's own clauses, which no rule states: the memories read as the free values of a new `epoch`
(log 2, DESIGN CHOICE), `cfg` and the rest of `inbox` are kept (log 15, DEDUCED), reset comes as a turn (log 5). -/
def Obligations.ResetLeavesTheTableValues : Prop :=
  let table : State → Prop := fun t =>
    t.width = 0#16 ∧ t.height = 0#16 ∧ t.plen = 0#32 ∧ t.olen = 0#32 ∧
    t.cause = 0#4 ∧ t.faddr = 0#32 ∧ t.fdata = 0#32 ∧
    t.trunc = false ∧ t.mfound = false ∧ t.taildrop = false ∧ t.status = 0x00000000#32 ∧
    t.enc = { state := .idle, vidx := 0#32, bidx := 0#33, bitcnt := 0#3, sr := 0#8,
              cur := { row := 0#16, col := 0#16, ch := 0#2 } } ∧
    t.dec = { state := .idle, sr := 0#8, bitcnt := 0#4, hold := 0#8, holdv := false, oidx := 0#32,
              cur := { row := 0#16, col := 0#16, ch := 0#2 } } ∧
    (∀ a, t.gmemRead a = Config.initialGmem t.epoch a) ∧ (∀ a, t.pmemRead a = Config.initialPmem t.epoch a) ∧
    ∀ a, t.omemRead a = Config.initialOmem t.epoch a
  table State.reset ∧
  (∀ (s : State) (rest : List Turn), s.inbox = .reset :: rest →
    ∃ t, step s = .next t ∧ table t ∧ t.cfg = s.cfg ∧ t.inbox = rest ∧ t.epoch = s.epoch + 1) ∧
  ∀ (i : Instr) (s t : State), hostOp i = true → s.busy = true → exec i s = .next t → t.enc = s.enc ∧ t.dec = s.dec

/-- 10_state.md R23: every field of STATUS; a RegRead of STATUS answers it even while a unit is BUSY; a RegWrite is
dropped without fault. -/
def Obligations.StatusShowsUnitStatesAndFlags : Prop :=
  ∀ s : State,
    (s.status.getLsbD 0 = true ↔
      s.enc.state = .validate ∨ s.enc.state = .fetch ∨ s.enc.state = .write ∨ s.dec.state = .scanning) ∧
    s.status.extractLsb' 1 3 =
      (match s.enc.state with
       | .idle => 0#3 | .validate => 1#3 | .fetch => 2#3 | .write => 3#3 | .done => 4#3 | .error => 5#3) ∧
    s.status.extractLsb' 4 2 = (match s.dec.state with | .idle => 0#2 | .scanning => 1#2 | .done => 2#2) ∧
    s.status.getLsbD 6 = s.trunc ∧ s.status.getLsbD 7 = s.mfound ∧ s.status.getLsbD 8 = s.taildrop ∧
    (s.status.getLsbD 9 = true ↔ s.cause ≠ 0#4) ∧
    s.status.extractLsb' 10 22 = 0#22 ∧
    exec (.regRead 1) s = .next { s with outbox := .word s.status :: s.outbox } ∧
    ∀ v, s.busy = false → exec (.regWrite 1 v) s = .next s

/-- 43_host_commands.md R201: RegRead answers what the register holds (10_state.md R22 to R30), or is refused with any
value. -/
def Obligations.RegReadAnswersTheRegister : Prop :=
  ∀ (r : Nat) (s : State),
    (s.busy = true → r ≠ 1 →
      ∃ v, exec (.regRead r) s =
        .next { s.raise .accessBusy r 0#32 with outbox := .word v :: s.outbox, freeIx := s.freeIx + 1 }) ∧
    (s.busy = false → 9 ≤ r →
      ∃ v, exec (.regRead r) s =
        .next { s.raise .addrRange r 0#32 with outbox := .word v :: s.outbox, freeIx := s.freeIx + 1 }) ∧
    (s.busy = false ∨ r = 1 → r < 9 →
      exec (.regRead r) s = .next { s with
        outbox := .word
          (if r = 0 then 0#32
           else if r = 1 then s.status
           else if r = 2 then s.width.setWidth 32
           else if r = 3 then s.height.setWidth 32
           else if r = 4 then s.plen
           else if r = 5 then s.olen
           else if r = 6 then s.cause.setWidth 32
           else if r = 7 then s.faddr
           else s.fdata) :: s.outbox })

/-- 43_host_commands.md R202, 10_state.md R31: RegWrite stores into WIDTH, HEIGHT and PLEN, dispatches a command for CMD,
is dropped for a read-only register, and is refused while BUSY or out of range. -/
def Obligations.RegWriteStoresTheRegister : Prop :=
  ∀ (r : Nat) (v : Word) (s : State),
    (r = 0 → exec (.regWrite r v) s = .next (s.dispatch v)) ∧
    (r ≠ 0 → s.busy = true → exec (.regWrite r v) s = .next (s.raise .accessBusy r 0#32)) ∧
    (9 ≤ r → s.busy = false → exec (.regWrite r v) s = .next (s.raise .addrRange r 0#32)) ∧
    (r = 2 → s.busy = false → exec (.regWrite r v) s = .next { s with width := v.extractLsb' 0 16 }) ∧
    (r = 3 → s.busy = false → exec (.regWrite r v) s = .next { s with height := v.extractLsb' 0 16 }) ∧
    (r = 4 → s.busy = false → exec (.regWrite r v) s = .next { s with plen := v }) ∧
    (r = 1 ∨ 5 ≤ r ∧ r ≤ 8 → s.busy = false → exec (.regWrite r v) s = .next s)

/-! ### Commands -/

/-- 43_host_commands.md R203: command dispatch, its lines in order. -/
def Obligations.DispatchDecidesInOrder : Prop :=
  ∀ (v : Word) (s : State),
    (s.busy = true → exec (.regWrite 0 v) s = .next (s.raise .cmdBusy 0 v)) ∧
    (s.busy = false → v = 0x00000003#32 → exec (.regWrite 0 v) s = .next s.clearAll) ∧
    (s.busy = false → v ≠ 0x00000003#32 → s.cause ≠ 0#4 → exec (.regWrite 0 v) s = .next s) ∧
    (s.busy = false → s.cause = 0#4 → v = 0x00000000#32 → exec (.regWrite 0 v) s = .next s) ∧
    (s.busy = false → s.cause = 0#4 → v = 0x00000001#32 → exec (.regWrite 0 v) s = .next s.startEnc) ∧
    (s.busy = false → s.cause = 0#4 → v = 0x00000002#32 → exec (.regWrite 0 v) s = .next s.startDec) ∧
    (s.busy = false → s.cause = 0#4 → 0x00000003#32 < v →
      exec (.regWrite 0 v) s = .next (s.raise .cmdReserved 0 v))

/-- 10_state.md R22: a write of a command's word to CMD is that command, and CMD stores nothing. -/
def Obligations.CommandIsAWriteToCmd : Prop :=
  (∀ (c : Command) (s : State), decode (.cmd c.word) = .ok c.instr ∧ exec (.regWrite 0 c.word) s = exec c.instr s) ∧
  ∀ s : State, s.busy = false → exec (.regRead 0) s = .next { s with outbox := .word 0#32 :: s.outbox }

/-- 43_host_commands.md R204: NOP changes nothing; while BUSY it is refused as every command is. -/
def Obligations.NopChangesNothing : Prop :=
  ∀ s : State,
    (s.busy = false → exec .nop s = .next s) ∧
    (s.busy = true → exec .nop s = .next (s.raise .cmdBusy 0 0x00000000#32))

/-- 43_host_commands.md R205: ENC_START, reached when not BUSY and with no fault latched. -/
def Obligations.EncStartPutsEncInValidate : Prop :=
  ∀ s : State, s.busy = false → s.cause = 0#4 →
    (3 * s.width.toNat * s.height.toNat ≤ s.cfg.gmax.val → s.plen.toNat ≤ s.cfg.pmax.val →
      exec .encStart s = .next { s with
        enc := { state := .validate, vidx := 0#32, bidx := 0#33, bitcnt := 0#3, sr := 0#8,
                 cur := { row := 0#16, col := 0#16, ch := 0#2 } }
        trunc := false }) ∧
    (s.cfg.gmax.val < 3 * s.width.toNat * s.height.toNat ∨ s.cfg.pmax.val < s.plen.toNat →
      exec .encStart s = .next { s with cause := 4#4, faddr := 0#32, fdata := 0x00000001#32 })

/-- 43_host_commands.md R206: DEC_START, reached when not BUSY and with no fault latched. -/
def Obligations.DecStartPutsDecInScanning : Prop :=
  ∀ s : State, s.busy = false → s.cause = 0#4 →
    (3 * s.width.toNat * s.height.toNat ≤ s.cfg.gmax.val →
      exec .decStart s = .next { s with
        dec := { state := .scanning, sr := 0#8, bitcnt := 0#4, hold := 0#8, holdv := false, oidx := 0#32,
                 cur := { row := 0#16, col := 0#16, ch := 0#2 } }
        olen := 0#32
        mfound := false
        taildrop := false }) ∧
    (s.cfg.gmax.val < 3 * s.width.toNat * s.height.toNat →
      exec .decStart s = .next { s with cause := 4#4, faddr := 0#32, fdata := 0x00000002#32 })

/-- 43_host_commands.md R207: CLEAR, accepted when not BUSY whether or not a fault is latched; everything it does not name
is unchanged. -/
def Obligations.ClearReturnsUnitsToIdle : Prop :=
  ∀ s : State, s.busy = false →
    exec .clear s = .next { s with
      enc := { s.enc with state := .idle }
      dec := { s.dec with state := .idle }
      trunc := false
      mfound := false
      taildrop := false
      cause := 0#4
      faddr := 0#32
      fdata := 0#32 }

/-! ### Memory transactions -/

/-- 43_host_commands.md R209: GRead. -/
def Obligations.GReadReturnsTheElement : Prop :=
  ∀ (a : Nat) (s : State),
    (s.busy = true → ∃ v, exec (.gRead a) s =
      .next { s.raise .accessBusy a 1#32 with outbox := .byte v :: s.outbox, freeIx := s.freeIx + 1 }) ∧
    (s.busy = false → s.cfg.gmax.val ≤ a → ∃ v, exec (.gRead a) s =
      .next { s.raise .addrRange a 1#32 with outbox := .byte v :: s.outbox, freeIx := s.freeIx + 1 }) ∧
    (s.busy = false → a < s.cfg.gmax.val →
      exec (.gRead a) s = .next { s with outbox := .byte (s.gmemRead a) :: s.outbox })

/-- 43_host_commands.md R210: GWrite stores the byte at that address and nowhere else, and changes nothing else. -/
def Obligations.GWriteStoresTheElement : Prop :=
  ∀ (a : Nat) (v : Byte) (s : State),
    (s.busy = true → exec (.gWrite a v) s = .next (s.raise .accessBusy a 1#32)) ∧
    (s.busy = false → s.cfg.gmax.val ≤ a → exec (.gWrite a v) s = .next (s.raise .addrRange a 1#32)) ∧
    (s.busy = false → a < s.cfg.gmax.val →
      ∃ t, exec (.gWrite a v) s = .next t ∧ { t with gmem := s.gmem } = s ∧
        t.gmemRead a = v ∧ ∀ b, b ≠ a → t.gmemRead b = s.gmemRead b)

/-- 43_host_commands.md R211: PRead. -/
def Obligations.PReadReturnsTheElement : Prop :=
  ∀ (a : Nat) (s : State),
    (s.busy = true → ∃ v, exec (.pRead a) s =
      .next { s.raise .accessBusy a 2#32 with outbox := .word v :: s.outbox, freeIx := s.freeIx + 1 }) ∧
    (s.busy = false → s.cfg.pmax.val ≤ a → ∃ v, exec (.pRead a) s =
      .next { s.raise .addrRange a 2#32 with outbox := .word v :: s.outbox, freeIx := s.freeIx + 1 }) ∧
    (s.busy = false → a < s.cfg.pmax.val →
      exec (.pRead a) s = .next { s with outbox := .word (s.pmemRead a) :: s.outbox })

/-- 43_host_commands.md R212: PWrite stores all 32 bits at that address and nowhere else, and changes nothing else. -/
def Obligations.PWriteStoresTheElement : Prop :=
  ∀ (a : Nat) (v : Word) (s : State),
    (s.busy = true → exec (.pWrite a v) s = .next (s.raise .accessBusy a 2#32)) ∧
    (s.busy = false → s.cfg.pmax.val ≤ a → exec (.pWrite a v) s = .next (s.raise .addrRange a 2#32)) ∧
    (s.busy = false → a < s.cfg.pmax.val →
      ∃ t, exec (.pWrite a v) s = .next t ∧ { t with pmem := s.pmem } = s ∧
        t.pmemRead a = v ∧ ∀ b, b ≠ a → t.pmemRead b = s.pmemRead b)

/-- 43_host_commands.md R213: ORead; OMEM has floor(GMAX / 8) elements. -/
def Obligations.OReadReturnsTheElement : Prop :=
  ∀ (a : Nat) (s : State),
    (s.busy = true → ∃ v, exec (.oRead a) s =
      .next { s.raise .accessBusy a 3#32 with outbox := .byte v :: s.outbox, freeIx := s.freeIx + 1 }) ∧
    (s.busy = false → s.cfg.gmax.val / 8 ≤ a → ∃ v, exec (.oRead a) s =
      .next { s.raise .addrRange a 3#32 with outbox := .byte v :: s.outbox, freeIx := s.freeIx + 1 }) ∧
    (s.busy = false → a < s.cfg.gmax.val / 8 →
      exec (.oRead a) s = .next { s with outbox := .byte (s.omemRead a) :: s.outbox })

/-! ### Faults -/

/-- 60_exceptions.md R252: a fault is recorded only when none is latched, and then it stays: only CLEAR (and reset)
returns CAUSE to 0. -/
def Obligations.FirstFaultSticks : Prop :=
  (∀ (c : Cause) (a : Nat) (d : Word) (s : State),
    (s.cause = 0#4 →
      s.raise c a d = { s with cause := c.code, faddr := BitVec.ofNat 32 (a % 2 ^ 32), fdata := d }) ∧
    (s.cause ≠ 0#4 → s.raise c a d = s)) ∧
  ∀ (i : Instr) (s t : State), exec i s = .next t → s.cause ≠ 0#4 → clears i = false → s.SameFault t

/-- 60_exceptions.md R250: the step that raises a fault changes no memory, and no unit's state but for E_VFAIL, which puts
ENC in ERROR. -/
def Obligations.FaultLeavesMemoriesAndUnits : Prop :=
  ∀ (i : Instr) (s t : State), exec i s = .next t → s.cause = 0#4 → t.cause ≠ 0#4 →
    t.gmem = s.gmem ∧ t.pmem = s.pmem ∧ t.omem = s.omem ∧ s.SameConfig t ∧ s.SameResults t ∧ t.dec = s.dec ∧
      (i ≠ .eVfail → t.enc = s.enc) ∧ (i = .eVfail → t.enc = { s.enc with state := .error })

/-- 60_exceptions.md R259: DEC raises nothing, and ENC nothing but in E_VFAIL; truncation in particular is no fault. -/
def Obligations.OnlyVfailRaisesInAUnit : Prop :=
  ∀ (i : Instr) (s t : State), hostOp i = false → i ≠ .eVfail → exec i s = .next t → s.SameFault t

/-- 20_memory.md R70: while a unit is BUSY the host may only read STATUS; every other transaction is refused, leaves the
running operation undisturbed, and is recorded if no fault is latched (a write to CMD as CMD_BUSY, 60_exceptions.md R254).
A refused read answers any value of the element's width (log 4). -/
def Obligations.BusyRefusesTheHost : Prop :=
  ∀ (i : Instr) (s : State), s.busy = true → i.format = .xact →
    ∃ t, exec i s = .next t ∧
      t.enc = s.enc ∧ t.dec = s.dec ∧ s.SameConfig t ∧ s.SameResults t ∧ s.SameMemories t ∧ t.inbox = s.inbox ∧
      (∀ r, i = .regRead r → ∃ v, t.outbox = .word v :: s.outbox) ∧
      (∀ a, i = .gRead a ∨ i = .oRead a → ∃ v, t.outbox = .byte v :: s.outbox) ∧
      (∀ a, i = .pRead a → ∃ v, t.outbox = .word v :: s.outbox) ∧
      (∀ a v w, i = .regWrite a w ∨ i = .gWrite a v ∨ i = .pWrite a w → t.outbox = s.outbox) ∧
      (i = .regRead 1 → s.SameFault t ∧ t.outbox = .word s.status :: s.outbox) ∧
      (i ≠ .regRead 1 → s.cause ≠ 0#4 → s.SameFault t) ∧
      (s.cause = 0#4 →
        (∀ r, i = .regRead r → r ≠ 1 → t.cause = 5#4 ∧ t.faddr = BitVec.ofNat 32 r ∧ t.fdata = 0#32) ∧
        (∀ v, i = .regWrite 0 v → t.cause = 2#4 ∧ t.faddr = 0#32 ∧ t.fdata = v) ∧
        (∀ r v, i = .regWrite r v → r ≠ 0 → t.cause = 5#4 ∧ t.faddr = BitVec.ofNat 32 r ∧ t.fdata = 0#32) ∧
        (∀ a, i = .gRead a → t.cause = 5#4 ∧ t.faddr = BitVec.ofNat 32 a ∧ t.fdata = 1#32) ∧
        (∀ a v, i = .gWrite a v → t.cause = 5#4 ∧ t.faddr = BitVec.ofNat 32 a ∧ t.fdata = 1#32) ∧
        (∀ a, i = .pRead a → t.cause = 5#4 ∧ t.faddr = BitVec.ofNat 32 a ∧ t.fdata = 2#32) ∧
        (∀ a v, i = .pWrite a v → t.cause = 5#4 ∧ t.faddr = BitVec.ofNat 32 a ∧ t.fdata = 2#32) ∧
        (∀ a, i = .oRead a → t.cause = 5#4 ∧ t.faddr = BitVec.ofNat 32 a ∧ t.fdata = 3#32))

/-- 60_exceptions.md R258: an access outside its space, made while no unit is BUSY, is refused; with no
fault latched it records ADDR_RANGE, the low 32 bits of the address, and the space. -/
def Obligations.OutOfRangeIsRefused : Prop :=
  ∀ (i : Instr) (s : State) (a : Nat) (space : Word), s.busy = false →
    ((i = .regRead a ∨ ∃ v, i = .regWrite a v) ∧ space = 0#32 ∧ 9 ≤ a ∨
     (i = .gRead a ∨ ∃ v, i = .gWrite a v) ∧ space = 1#32 ∧ s.cfg.gmax.val ≤ a ∨
     (i = .pRead a ∨ ∃ v, i = .pWrite a v) ∧ space = 2#32 ∧ s.cfg.pmax.val ≤ a ∨
     i = .oRead a ∧ space = 3#32 ∧ s.cfg.gmax.val / 8 ≤ a) →
    ∃ t, exec i s = .next t ∧ t.enc = s.enc ∧ t.dec = s.dec ∧ s.SameConfig t ∧ s.SameResults t ∧ s.SameMemories t ∧
      (i = .regRead a ∨ i = .pRead a → ∃ v, t.outbox = .word v :: s.outbox) ∧
      (i = .gRead a ∨ i = .oRead a → ∃ v, t.outbox = .byte v :: s.outbox) ∧
      (∀ v w, i = .regWrite a w ∨ i = .gWrite a v ∨ i = .pWrite a w → t.outbox = s.outbox) ∧
      t.inbox = s.inbox ∧
      (s.cause = 0#4 → t.cause = 6#4 ∧ t.faddr = BitVec.ofNat 32 (a % 2 ^ 32) ∧ t.fdata = space) ∧
      (s.cause ≠ 0#4 → s.SameFault t)

/-! ### Micro-operations of the encoder -/

/-- 41_encoder.md R141: E_VCHK. -/
def Obligations.EVchkMovesToTheNextUnit : Prop :=
  ∀ s : State, s.enc.state = .validate → s.enc.vidx.toNat < s.plen.toNat →
    (s.pmemRead s.enc.vidx.toNat).toNat ≤ 255 →
    ∃ t, exec .eVchk s = .next t ∧ t.enc.vidx.toNat = s.enc.vidx.toNat + 1 ∧
      { t with enc := { t.enc with vidx := s.enc.vidx } } = s

/-- 41_encoder.md R142: E_VFAIL, with no fault latched before. -/
def Obligations.EVfailRecordsTheOffendingUnit : Prop :=
  ∀ s : State, s.enc.state = .validate → s.enc.vidx.toNat < s.plen.toNat →
    255 < (s.pmemRead s.enc.vidx.toNat).toNat → s.cause = 0#4 →
    exec .eVfail s = .next { s with
      cause := 1#4
      faddr := s.enc.vidx
      fdata := s.pmemRead s.enc.vidx.toNat
      enc := { s.enc with state := .error } }

/-- E_VFAIL while a fault is latched, which a refused host access during validation brings about: the unit stops in ERROR
and the earlier fault is kept (60_exceptions.md R252; the model's reading, log 12). -/
def Obligations.EVfailKeepsAnEarlierFault : Prop :=
  ∀ s : State, s.enc.state = .validate → s.enc.vidx.toNat < s.plen.toNat →
    255 < (s.pmemRead s.enc.vidx.toNat).toNat → s.cause ≠ 0#4 →
    exec .eVfail s = .next { s with enc := { s.enc with state := .error } }

/-- 41_encoder.md R143: E_VEND. -/
def Obligations.EVendStartsEmbedding : Prop :=
  ∀ s : State, s.enc.state = .validate → s.enc.vidx = s.plen →
    exec .eVend s = .next { s with enc := { s.enc with state := .fetch } }

/-- 41_encoder.md R144, R140: E_FETCH loads byte BIDX of the framed payload, the payload's code units being followed by
0xFF and 0xFE. -/
def Obligations.EFetchLoadsTheFramedByte : Prop :=
  ∀ s : State, s.enc.state = .fetch → s.enc.bidx.toNat < s.plen.toNat + 2 →
    exec .eFetch s = .next { s with
      enc := { s.enc with
        state := .write
        sr :=
          if s.enc.bidx.toNat < s.plen.toNat then (s.pmemRead s.enc.bidx.toNat).extractLsb' 0 8
          else if s.enc.bidx.toNat = s.plen.toNat then 0xFF#8
          else 0xFE#8 } }

/-- 41_encoder.md R145: E_COMPLETE; TRUNC stays as it was, and so does every channel. -/
def Obligations.ECompleteEndsInDone : Prop :=
  ∀ s : State, s.enc.state = .fetch → s.enc.bidx.toNat = s.plen.toNat + 2 →
    exec .eComplete s = .next { s with enc := { s.enc with state := .done } }

/-- 41_encoder.md R146: E_TRUNC; no memory is accessed and no fault is raised. -/
def Obligations.ETruncEndsInDoneWithTrunc : Prop :=
  ∀ s : State, s.enc.state = .write → (s.width = 0#16 ∨ s.enc.cur.row = s.height) →
    exec .eTrunc s = .next { s with enc := { s.enc with state := .done }, trunc := true }

/-- 41_encoder.md R147: E_WRITE puts SR[7] into bit 0 of one channel, keeps its bits 7 to 1 and every other element, shifts
SR, advances the cursor channel first, and counts the bit. Following the rule's pseudocode, which its worked example
contradicts on the bit, is the model's choice (log 19, DEDUCED). -/
def Obligations.EWriteWritesOneBit : Prop :=
  ∀ s : State, s.enc.state = .write → s.width ≠ 0#16 → s.enc.cur.row ≠ s.height →
    ∃ t, exec .eWrite s = .next t ∧
      (∀ a, a = (s.enc.cur.row.toNat * s.width.toNat + s.enc.cur.col.toNat) * 3 + s.enc.cur.ch.toNat →
        t.gmemRead a = ((s.gmemRead a &&& 0xFE#8) ||| (s.enc.sr >>> 7)) ∧
        ∀ b, b ≠ a → t.gmemRead b = s.gmemRead b) ∧
      t.enc.sr = s.enc.sr <<< 1 ∧
      (s.enc.bitcnt = 7#3 →
        t.enc.bitcnt = 0#3 ∧ t.enc.bidx = s.enc.bidx + 1#33 ∧ t.enc.state = .fetch) ∧
      (s.enc.bitcnt ≠ 7#3 →
        t.enc.bitcnt = s.enc.bitcnt + 1#3 ∧ t.enc.bidx = s.enc.bidx ∧ t.enc.state = .write) ∧
      t.enc.cur =
        (if s.enc.cur.ch.toNat < 2 then { s.enc.cur with ch := s.enc.cur.ch + 1#2 }
         else if s.enc.cur.col.toNat < s.width.toNat - 1 then
           { row := s.enc.cur.row, col := s.enc.cur.col + 1#16, ch := 0#2 }
         else { row := s.enc.cur.row + 1#16, col := 0#16, ch := 0#2 }) ∧
      t.enc.vidx = s.enc.vidx ∧ { t with enc := s.enc, gmem := s.gmem } = s

/-! ### Micro-operations of the decoder -/

/-- 42_decoder.md R171: D_READ shifts bit 0 of the next channel into SR and writes no memory. -/
def Obligations.DReadShiftsOneBitIn : Prop :=
  ∀ s : State, s.dec.state = .scanning → s.dec.bitcnt.toNat < 8 → s.width ≠ 0#16 → s.dec.cur.row ≠ s.height →
    ∃ t, exec .dRead s = .next t ∧
      t.dec.sr = ((s.dec.sr <<< 1) |||
        (s.gmemRead ((s.dec.cur.row.toNat * s.width.toNat + s.dec.cur.col.toNat) * 3 + s.dec.cur.ch.toNat) &&& 1#8)) ∧
      t.dec.bitcnt.toNat = s.dec.bitcnt.toNat + 1 ∧
      t.dec.cur =
        (if s.dec.cur.ch.toNat < 2 then { s.dec.cur with ch := s.dec.cur.ch + 1#2 }
         else if s.dec.cur.col.toNat < s.width.toNat - 1 then
           { row := s.dec.cur.row, col := s.dec.cur.col + 1#16, ch := 0#2 }
         else { row := s.dec.cur.row + 1#16, col := 0#16, ch := 0#2 }) ∧
      { t with dec := { t.dec with sr := s.dec.sr, bitcnt := s.dec.bitcnt, cur := s.dec.cur } } = s

/-- 42_decoder.md R172: D_MATCH. -/
def Obligations.DMatchStopsAtTheMarker : Prop :=
  ∀ s : State, s.dec.state = .scanning → s.dec.bitcnt = 8#4 → s.dec.holdv = true → s.dec.hold = 0xFF#8 →
    s.dec.sr = 0xFE#8 →
    exec .dMatch s = .next { s with mfound := true, olen := s.dec.oidx, dec := { s.dec with state := .done } }

/-- 42_decoder.md R173: D_BYTE delivers the held byte, if any, to OMEM[OIDX] and nowhere else, and holds the new one. -/
def Obligations.DByteDeliversTheHeldByte : Prop :=
  ∀ s : State, s.dec.state = .scanning → s.dec.bitcnt = 8#4 →
    ¬(s.dec.holdv = true ∧ s.dec.hold = 0xFF#8 ∧ s.dec.sr = 0xFE#8) →
    (s.dec.holdv = false →
      exec .dByte s = .next { s with dec := { s.dec with hold := s.dec.sr, holdv := true, bitcnt := 0#4 } }) ∧
    (s.dec.holdv = true →
      ∃ t, exec .dByte s = .next t ∧
        t.omemRead s.dec.oidx.toNat = s.dec.hold ∧
        (∀ b, b ≠ s.dec.oidx.toNat → t.omemRead b = s.omemRead b) ∧
        { t with omem := s.omem } = { s with
          dec := { s.dec with oidx := s.dec.oidx + 1#32, hold := s.dec.sr, holdv := true, bitcnt := 0#4 } })

/-- 42_decoder.md R174: D_FINISH delivers a held tail byte unless it is 0xFF; a held 0xFF is dropped and sets TAILDROP. -/
def Obligations.DFinishAppliesTheTailRule : Prop :=
  ∀ s : State, s.dec.state = .scanning → s.dec.bitcnt.toNat < 8 → (s.width = 0#16 ∨ s.dec.cur.row = s.height) →
    (s.dec.holdv = true → s.dec.hold ≠ 0xFF#8 →
      ∃ t, exec .dFinish s = .next t ∧
        t.omemRead s.dec.oidx.toNat = s.dec.hold ∧
        (∀ b, b ≠ s.dec.oidx.toNat → t.omemRead b = s.omemRead b) ∧
        { t with omem := s.omem } = { s with
          olen := s.dec.oidx + 1#32
          dec := { s.dec with oidx := s.dec.oidx + 1#32, state := .done } }) ∧
    (s.dec.holdv = true → s.dec.hold = 0xFF#8 →
      exec .dFinish s = .next { s with olen := s.dec.oidx, taildrop := true, dec := { s.dec with state := .done } }) ∧
    (s.dec.holdv = false →
      exec .dFinish s = .next { s with olen := s.dec.oidx, dec := { s.dec with state := .done } })

/-! ### Selection and stepping -/

/-- A micro-operation runs exactly where its row of 30_encoding.md R104 selects it, and has no effect anywhere else (the
model's fault `notSelected`, log 9). -/
def Obligations.MicroOpRunsExactlyInItsRow : Prop :=
  ∀ s : State,
    let v := s.enc.vidx.toNat
    let b := s.enc.bidx.toNat
    let l := s.plen.toNat
    let encOut := s.width = 0#16 ∨ s.enc.cur.row = s.height
    let decOut := s.width = 0#16 ∨ s.dec.cur.row = s.height
    let marker := s.dec.holdv = true ∧ s.dec.hold = 0xFF#8 ∧ s.dec.sr = 0xFE#8
    ((∃ t, exec .eVend s = .next t) ↔ s.enc.state = .validate ∧ v = l) ∧
    ((∃ t, exec .eVfail s = .next t) ↔ s.enc.state = .validate ∧ v < l ∧ 255 < (s.pmemRead v).toNat) ∧
    ((∃ t, exec .eVchk s = .next t) ↔ s.enc.state = .validate ∧ v < l ∧ (s.pmemRead v).toNat ≤ 255) ∧
    ((∃ t, exec .eComplete s = .next t) ↔ s.enc.state = .fetch ∧ b = l + 2) ∧
    ((∃ t, exec .eFetch s = .next t) ↔ s.enc.state = .fetch ∧ b < l + 2) ∧
    ((∃ t, exec .eTrunc s = .next t) ↔ s.enc.state = .write ∧ encOut) ∧
    ((∃ t, exec .eWrite s = .next t) ↔ s.enc.state = .write ∧ ¬encOut) ∧
    ((∃ t, exec .dMatch s = .next t) ↔ s.dec.state = .scanning ∧ s.dec.bitcnt.toNat = 8 ∧ marker) ∧
    ((∃ t, exec .dByte s = .next t) ↔ s.dec.state = .scanning ∧ s.dec.bitcnt.toNat = 8 ∧ ¬marker) ∧
    ((∃ t, exec .dFinish s = .next t) ↔ s.dec.state = .scanning ∧ s.dec.bitcnt.toNat < 8 ∧ decOut) ∧
    ((∃ t, exec .dRead s = .next t) ↔ s.dec.state = .scanning ∧ s.dec.bitcnt.toNat < 8 ∧ ¬decOut) ∧
    ∀ i, hostOp i = false → (∃ t, exec i s = .next t) ∨ exec i s = .fault .notSelected

/-- A step runs the operation decoded from the turn at hand: the host's transaction, or the micro-operation of the running
unit, which moves at its turns and whenever the host has none (log 5); with no unit running nothing happens (log 7). -/
def Obligations.StepRunsTheDecodedOperation : Prop :=
  (∀ (s : State) (q : Request) (rest : List Turn) (i : Instr),
    s.inbox = .host q :: rest → decode (.xact q) = .ok i → step s = exec i { s with inbox := rest }) ∧
  (∀ (s : State) (rest : List Turn) (i : Instr), s.inbox = .unit :: rest → s.enc.state.running = true →
    decode (.encStep s.encSeq) = .ok i → step s = exec i { s with inbox := rest }) ∧
  (∀ (s : State) (rest : List Turn) (i : Instr), s.inbox = .unit :: rest → s.enc.state.running = false →
    s.dec.state = .scanning → decode (.decStep s.decSeq) = .ok i → step s = exec i { s with inbox := rest }) ∧
  (∀ (s : State) (i : Instr), s.inbox = [] → s.enc.state.running = true →
    decode (.encStep s.encSeq) = .ok i → step s = exec i s) ∧
  (∀ (s : State) (i : Instr), s.inbox = [] → s.enc.state.running = false → s.dec.state = .scanning →
    decode (.decStep s.decSeq) = .ok i → step s = exec i s) ∧
  (∀ (s : State) (rest : List Turn), s.inbox = .unit :: rest → s.busy = false → step s = .next { s with inbox := rest }) ∧
  ∀ s : State, s.inbox = [] → s.busy = false → step s = .next s

/-- WAIT as a turn of the host (43_host_commands.md R215, log 11): while BUSY the running unit moves and WAIT stays; when
BUSY is 0 it reads STATUS, whose bit 0 is then 0. -/
def Obligations.WaitEndsWhenBusyEnds : Prop :=
  (∀ (s t : State) (rest : List Turn), s.inbox = .wait :: rest → s.busy = true →
    (step s = .next t ↔ ∃ u, step { s with inbox := [] } = .next u ∧ t = { u with inbox := .wait :: rest })) ∧
  ∀ (s : State) (rest : List Turn), s.inbox = .wait :: rest → s.busy = false →
    s.status.getLsbD 0 = false ∧
      step s = .next { s with inbox := rest, outbox := .word s.status :: s.outbox }

/-! ### Encoding -/

/-- Words written out from 30_encoding.md R100 and R101, and requests from 43_host_commands.md R200, decode to what they
stand for. -/
def Obligations.SpecWordsDecode : Prop :=
  decode (.cmd 0x00000000#32) = .ok .nop ∧ decode (.cmd 0x00000001#32) = .ok .encStart ∧
  decode (.cmd 0x00000002#32) = .ok .decStart ∧ decode (.cmd 0x00000003#32) = .ok .clear ∧
  decode (.cmd 0x00000101#32) = .error .reservedCommand ∧
  decode (.xact { space := 0#2, write := true, addr := 2, data := 0x0001000B#32 }) = .ok (.regWrite 2 0x0001000B#32) ∧
  decode (.xact { space := 1#2, write := true, addr := 5, data := 0x77#32 }) = .ok (.gWrite 5 0x77#8) ∧
  decode (.xact { space := 3#2, write := true, addr := 0, data := 0#32 }) = .error .omemWrite

/-- 30_encoding.md R101: every word but the four of R100 is reserved, and written to CMD while not BUSY and with no fault
latched it does nothing but record CMD_RESERVED. -/
def Obligations.ReservedWordsOnlyFault : Prop :=
  ∀ w : Word, w ≠ 0x00000000#32 → w ≠ 0x00000001#32 → w ≠ 0x00000002#32 → w ≠ 0x00000003#32 →
    decode (.cmd w) = .error .reservedCommand ∧
    ∀ s : State, s.busy = false → s.cause = 0#4 →
      exec (.regWrite 0 w) s = .next { s with cause := 3#4, faddr := 0#32, fdata := w }

/-- Decoding what the encoder writes gives the operation back, for every operation and every operand; where a form has one
encoding (a command word, a host request) no other decodes to it; and the well-formed requests are the ones that decode. -/
def Obligations.DecodeAndEncodeAgree : Prop :=
  (∀ i : Instr, decode (encode i) = .ok i) ∧
  (∀ (w : Word) (i : Instr), decode (.cmd w) = .ok i → encode i = .cmd w) ∧
  (∀ (q : Request) (i : Instr), decode (.xact q) = .ok i → encode i = .xact q) ∧
  ∀ q : Request, q.wellFormed = true ↔ ∃ i, decode (.xact q) = .ok i

/-! ### The invariant and whole-machine rules -/

/-- The state after reset meets the invariant. -/
def Obligations.ResetMeetsTheInvariant : Prop := State.reset.Inv

/-- Every step, of the host, of a unit or reset, keeps the invariant: the memories stay canonical and inside their spaces,
at most one unit runs, the cursors and counters stay in the ranges of 10_state.md R33 to R42 and move together (41_encoder.md
R148 (a), (b), (d), (e); 42_decoder.md R175 (a)), a unit in ERROR has a fault latched. -/
def Obligations.StepKeepsTheInvariant : Prop :=
  ∀ s t : State, s.Inv → step s = .next t → t.Inv

/-- A running unit is never stuck (30_encoding.md R104, 41_encoder.md R149, 42_decoder.md R176): in a state that meets the
invariant it always has a next step, a micro-operation of its own. -/
def Obligations.RunningUnitIsNeverStuck : Prop :=
  ∀ s : State, s.Inv → s.busy = true → s.inbox = [] →
    ∃ i t, hostOp i = false ∧ step s = exec i s ∧ exec i s = .next t

/-- 43_host_commands.md R208: a unit enters a running state only through its START command, made while no unit runs. -/
def Obligations.UnitsStartOnlyByCommand : Prop :=
  ∀ (i : Instr) (s t : State), exec i s = .next t →
    (s.enc.state.running = false → t.enc.state.running = true →
      (i = .encStart ∨ i = .regWrite 0 0x00000001#32) ∧ s.busy = false ∧ s.cause = 0#4) ∧
    (s.dec.state.running = false → t.dec.state.running = true →
      (i = .decStart ∨ i = .regWrite 0 0x00000002#32) ∧ s.busy = false ∧ s.cause = 0#4)

/-- 20_memory.md R60: who writes what. GMEM changes only by GWrite and E_WRITE, PMEM only by PWrite, OMEM only by D_BYTE
and D_FINISH; and no operation changes the block's sizes (00_scope.md R9). -/
def Obligations.EachMemoryHasItsWriters : Prop :=
  ∀ (i : Instr) (s t : State), exec i s = .next t →
    t.cfg = s.cfg ∧ t.epoch = s.epoch ∧
    (t.gmem ≠ s.gmem → i = .eWrite ∨ ∃ a v, i = .gWrite a v) ∧
    (t.pmem ≠ s.pmem → ∃ a v, i = .pWrite a v) ∧
    (t.omem ≠ s.omem → i = .dByte ∨ i = .dFinish)

/-- 10_state.md R44: where a cursor in its ranges is not exhausted, its row, column and channel are those of its linear
position, which is below N. -/
def Obligations.CursorIsItsLinearPosition : Prop :=
  ∀ (c : Cursor) (w h : BitVec 16), c.legal w h → c.exhausted w h = false →
    c.pos w h < 3 * w.toNat * h.toNat ∧
    c.row.toNat = c.pos w h / (3 * w.toNat) ∧
    c.col.toNat = c.pos w h / 3 % w.toNat ∧
    c.ch.toNat = c.pos w h % 3

/-- 20_memory.md R70, 44_properties.md R242: what the host does while a unit runs cannot be seen in the run. A transaction
(or command) of the host and then the unit's micro-operation leave the unit, the memories, the configuration and the
results as the micro-operation alone does. The comparison is the model's choice: both runs start in one state, so they
read the same free values (log 18, DESIGN CHOICE). -/
def Obligations.HostCannotDisturbARun : Prop :=
  ∀ (x i : Instr) (s u t : State), s.busy = true → hostOp x = true → hostOp i = false →
    exec x s = .next u → exec i s = .next t →
    ∃ t', exec i u = .next t' ∧ t'.enc = t.enc ∧ t'.dec = t.dec ∧ t.SameConfig t' ∧ t.SameResults t' ∧
      t.SameMemories t'

/-! ### What the units compute -/

/-- 40_reference_functions.md R133 (a), 41_encoder.md R149: after an accepted ENC_START and all of ENC's steps, for a valid
payload, the grid is `encode(g, P)`, everything else is unchanged, TRUNC says whether it did not fit, and the run is no
longer than R149 says. -/
def Obligations.EncoderRunEmbedsThePayload : Prop :=
  ∀ s : State, s.busy = false → s.cause = 0#4 → s.inbox = [] →
    s.channels ≤ s.cfg.gmax.val → s.plen.toNat ≤ s.cfg.pmax.val → Ref.validPayload s.payload = true →
    ∃ s₁ t, exec .encStart s = .next s₁ ∧
      (∀ k, 2 * s.plen.toNat + 4 + min (8 * s.plen.toNat + 16) s.channels ≤ k → runSteps k s₁ = .next t) ∧
      t.enc.state = .done ∧
      t.grid = Ref.encodeGrid s.grid (Ref.payloadBytes s.payload) ∧
      (∀ a, s.channels ≤ a → t.gmemRead a = s.gmemRead a) ∧
      (∀ a, t.pmemRead a = s.pmemRead a) ∧ (∀ a, t.omemRead a = s.omemRead a) ∧
      s.SameConfig t ∧ t.trunc = !(Ref.fits s.grid (Ref.payloadBytes s.payload)) ∧ t.cause = 0#4

/-- 40_reference_functions.md R133 (a): for a payload with a code unit above 255 the run ends in ERROR, GMEM is unchanged,
and the fault names the first offending index and the code unit there. -/
def Obligations.EncoderRunRejectsABadPayload : Prop :=
  ∀ s : State, s.busy = false → s.cause = 0#4 → s.inbox = [] →
    s.channels ≤ s.cfg.gmax.val → s.plen.toNat ≤ s.cfg.pmax.val → Ref.validPayload s.payload = false →
    ∃ s₁ t, exec .encStart s = .next s₁ ∧
      (∀ k, s.plen.toNat + 1 ≤ k → runSteps k s₁ = .next t) ∧
      t.enc.state = .error ∧ t.cause = 1#4 ∧ t.faddr.toNat = Ref.firstBad s.payload ∧
      t.fdata = s.pmemRead (Ref.firstBad s.payload) ∧ s.SameMemories t ∧ s.SameConfig t

/-- 40_reference_functions.md R133 (b), 42_decoder.md R176: after an accepted DEC_START and all of DEC's steps OMEM holds
`decode(g)`, GMEM and PMEM are unchanged, MFOUND and TAILDROP say how the scan ended, and the run is no longer than R176
says. -/
def Obligations.DecoderRunExtractsThePayload : Prop :=
  ∀ s : State, s.busy = false → s.cause = 0#4 → s.inbox = [] → s.channels ≤ s.cfg.gmax.val →
    ∃ s₁ t, exec .decStart s = .next s₁ ∧
      (∀ k, s.channels + s.channels / 8 + 1 ≤ k → runSteps k s₁ = .next t) ∧
      t.dec.state = .done ∧ t.decoded = Ref.decodeGrid s.grid ∧
      (∀ a, t.gmemRead a = s.gmemRead a) ∧ (∀ a, t.pmemRead a = s.pmemRead a) ∧ s.SameConfig t ∧
      t.mfound = Ref.scanFound s.wholeBytes ∧ t.taildrop = Ref.scanDropped s.wholeBytes ∧ t.cause = 0#4

/-- The block's purpose, 44_properties.md R230 and R231 carried to the machine: from any state at rest with no fault, a
payload of bytes without an inner marker that leaves room for one marker byte is read back exactly by ENC_START, its run,
DEC_START and its run. -/
def Obligations.MachineRoundTrip : Prop :=
  ∀ s : State, s.busy = false → s.cause = 0#4 → s.inbox = [] →
    s.channels ≤ s.cfg.gmax.val → s.plen.toNat ≤ s.cfg.pmax.val → Ref.validPayload s.payload = true →
    Ref.hasMarker (Ref.payloadBytes s.payload) = false → 8 * s.plen.toNat + 8 ≤ s.channels →
    ∃ s₁ t₁ s₂ t₂ k₁ k₂, exec .encStart s = .next s₁ ∧ runSteps k₁ s₁ = .next t₁ ∧ t₁.busy = false ∧
      exec .decStart t₁ = .next s₂ ∧ runSteps k₂ s₂ = .next t₂ ∧ t₂.busy = false ∧
      t₂.decoded = Ref.payloadBytes s.payload ∧ t₂.cause = 0#4

/-! ### Laws of the reference functions -/

/-- 40_reference_functions.md R120: the bits of a byte and the byte of eight bits are each other's inverse. -/
def Obligations.BitsAndBytesAreInverse : Prop :=
  (∀ b : Byte, Ref.groups (Ref.bits8 b) = [b]) ∧
  ∀ q0 q1 q2 q3 q4 q5 q6 q7 : Bool,
    Ref.bits8 (Ref.byte8 q0 q1 q2 q3 q4 q5 q6 q7) = [q0, q1, q2, q3, q4, q5, q6, q7]

/-- 44_properties.md R230, R231: the round trip holds for a payload without an inner marker as soon as one marker byte
fits. -/
def Obligations.RoundTripWithoutInnerMarker : Prop :=
  ∀ (g : Ref.Grid) (t : List Byte), Ref.hasMarker t = false → 8 * t.length + 8 ≤ g.ch.length →
    Ref.decodeGrid (Ref.encodeGrid g t) = t

/-- 44_properties.md R232: encoding alters no bit above the LSB, no channel beyond the bitstream, and neither the
dimensions nor the number of channels. -/
def Obligations.EncodingAltersOnlyLsbsOfThePrefix : Prop :=
  ∀ (g : Ref.Grid) (t : List Byte),
    (Ref.encodeGrid g t).width = g.width ∧ (Ref.encodeGrid g t).height = g.height ∧
    (Ref.encodeGrid g t).ch.length = g.ch.length ∧
    (∀ (p : Nat) (c : Byte), g.ch[p]? = some c →
      ∃ c', (Ref.encodeGrid g t).ch[p]? = some c' ∧ c'.extractLsb' 1 7 = c.extractLsb' 1 7) ∧
    ∀ p, 8 * t.length + 16 ≤ p → (Ref.encodeGrid g t).ch[p]? = g.ch[p]?

/-- 40_reference_functions.md R126, R123: channel `p` within the grid and the bitstream carries bit
`frame(T)[p / 8][7 - p mod 8]`. -/
def Obligations.EncodingPlacesEachBit : Prop :=
  ∀ (g : Ref.Grid) (t : List Byte) (p : Nat) (c : Byte), p < 8 * t.length + 16 → g.ch[p]? = some c →
    ∃ b, (Ref.frame t)[p / 8]? = some b ∧
      (Ref.encodeGrid g t).ch[p]? = some (Ref.setLsb c (b.getLsbD (7 - p % 8)))

/-- 44_properties.md R234: whatever the grid's size and the payload, decoding an encoded grid gives a prefix of the
payload. -/
def Obligations.TruncatedDecodeIsAPrefix : Prop :=
  ∀ (g : Ref.Grid) (t : List Byte), Ref.decodeGrid (Ref.encodeGrid g t) <+: t

/-- 44_properties.md R236: encoding the empty payload and decoding gives the empty payload, on any grid. -/
def Obligations.EmptyPayloadDecodesEmpty : Prop :=
  ∀ g : Ref.Grid, Ref.decodeGrid (Ref.encodeGrid g []) = [] ∧
    ∀ p, 16 ≤ p → (Ref.encodeGrid g []).ch[p]? = g.ch[p]?

/-- 44_properties.md R239: a payload with 0xFF 0xFE inside, the first pair at `i` and embedded whole, decodes to the bytes
before the pair. -/
def Obligations.InnerMarkerCutsTheDecode : Prop :=
  ∀ (g : Ref.Grid) (u v : List Byte), Ref.hasMarker u = false → 8 * (u.length + 2) ≤ g.ch.length →
    Ref.decodeGrid (Ref.encodeGrid g (u ++ [0xFF#8, 0xFE#8] ++ v)) = u

/-- 44_properties.md R241: encoding twice is encoding once, and a second payload overwrites the first. -/
def Obligations.EncodingTwiceIsEncodingOnce : Prop :=
  (∀ (g : Ref.Grid) (t : List Byte), Ref.encodeGrid (Ref.encodeGrid g t) t = Ref.encodeGrid g t) ∧
  ∀ (g : Ref.Grid) (t₁ t₂ : List Byte), Ref.hasMarker t₂ = false → Ref.fits g t₂ = true →
    Ref.decodeGrid (Ref.encodeGrid (Ref.encodeGrid g t₁) t₂) = t₂

/-- 44_properties.md R243: a decode has at most floor(N / 8) bytes, and two fewer when the marker was found. -/
def Obligations.DecodeLengthIsBounded : Prop :=
  ∀ g : Ref.Grid, (Ref.decodeGrid g).length ≤ g.ch.length / 8 ∧
    (Ref.scanFound (Ref.groups (Ref.lsbs g)) = true → (Ref.decodeGrid g).length + 2 ≤ g.ch.length / 8)
end

