-- ==== Sys2Proof/Laws/State.lean ====
section
/-! SUPPORT. For every update of State, what each field is afterwards: later proofs cite these and unfold no record
update. -/

namespace Sys2Proof.Machine.State

variable (s : State)

/-! ### gmemWrite -/

@[simp] theorem gmemWrite_cfg (a : Nat) (v : Byte) : (s.gmemWrite a v).cfg = s.cfg := rfl

@[simp] theorem gmemWrite_width (a : Nat) (v : Byte) : (s.gmemWrite a v).width = s.width := rfl

@[simp] theorem gmemWrite_height (a : Nat) (v : Byte) : (s.gmemWrite a v).height = s.height := rfl

@[simp] theorem gmemWrite_plen (a : Nat) (v : Byte) : (s.gmemWrite a v).plen = s.plen := rfl

@[simp] theorem gmemWrite_olen (a : Nat) (v : Byte) : (s.gmemWrite a v).olen = s.olen := rfl

@[simp] theorem gmemWrite_cause (a : Nat) (v : Byte) : (s.gmemWrite a v).cause = s.cause := rfl

@[simp] theorem gmemWrite_faddr (a : Nat) (v : Byte) : (s.gmemWrite a v).faddr = s.faddr := rfl

@[simp] theorem gmemWrite_fdata (a : Nat) (v : Byte) : (s.gmemWrite a v).fdata = s.fdata := rfl

@[simp] theorem gmemWrite_trunc (a : Nat) (v : Byte) : (s.gmemWrite a v).trunc = s.trunc := rfl

@[simp] theorem gmemWrite_mfound (a : Nat) (v : Byte) : (s.gmemWrite a v).mfound = s.mfound := rfl

@[simp] theorem gmemWrite_taildrop (a : Nat) (v : Byte) : (s.gmemWrite a v).taildrop = s.taildrop := rfl

@[simp] theorem gmemWrite_enc (a : Nat) (v : Byte) : (s.gmemWrite a v).enc = s.enc := rfl

@[simp] theorem gmemWrite_dec (a : Nat) (v : Byte) : (s.gmemWrite a v).dec = s.dec := rfl

@[simp] theorem gmemWrite_gmem (a : Nat) (v : Byte) : (s.gmemWrite a v).gmem = Mem.store s.gmem a v := rfl

@[simp] theorem gmemWrite_pmem (a : Nat) (v : Byte) : (s.gmemWrite a v).pmem = s.pmem := rfl

@[simp] theorem gmemWrite_omem (a : Nat) (v : Byte) : (s.gmemWrite a v).omem = s.omem := rfl

@[simp] theorem gmemWrite_inbox (a : Nat) (v : Byte) : (s.gmemWrite a v).inbox = s.inbox := rfl

@[simp] theorem gmemWrite_outbox (a : Nat) (v : Byte) : (s.gmemWrite a v).outbox = s.outbox := rfl

@[simp] theorem gmemWrite_epoch (a : Nat) (v : Byte) : (s.gmemWrite a v).epoch = s.epoch := rfl

@[simp] theorem gmemWrite_freeIx (a : Nat) (v : Byte) : (s.gmemWrite a v).freeIx = s.freeIx := rfl

/-! ### pmemWrite -/

@[simp] theorem pmemWrite_cfg (a : Nat) (v : Word) : (s.pmemWrite a v).cfg = s.cfg := rfl

@[simp] theorem pmemWrite_width (a : Nat) (v : Word) : (s.pmemWrite a v).width = s.width := rfl

@[simp] theorem pmemWrite_height (a : Nat) (v : Word) : (s.pmemWrite a v).height = s.height := rfl

@[simp] theorem pmemWrite_plen (a : Nat) (v : Word) : (s.pmemWrite a v).plen = s.plen := rfl

@[simp] theorem pmemWrite_olen (a : Nat) (v : Word) : (s.pmemWrite a v).olen = s.olen := rfl

@[simp] theorem pmemWrite_cause (a : Nat) (v : Word) : (s.pmemWrite a v).cause = s.cause := rfl

@[simp] theorem pmemWrite_faddr (a : Nat) (v : Word) : (s.pmemWrite a v).faddr = s.faddr := rfl

@[simp] theorem pmemWrite_fdata (a : Nat) (v : Word) : (s.pmemWrite a v).fdata = s.fdata := rfl

@[simp] theorem pmemWrite_trunc (a : Nat) (v : Word) : (s.pmemWrite a v).trunc = s.trunc := rfl

@[simp] theorem pmemWrite_mfound (a : Nat) (v : Word) : (s.pmemWrite a v).mfound = s.mfound := rfl

@[simp] theorem pmemWrite_taildrop (a : Nat) (v : Word) : (s.pmemWrite a v).taildrop = s.taildrop := rfl

@[simp] theorem pmemWrite_enc (a : Nat) (v : Word) : (s.pmemWrite a v).enc = s.enc := rfl

@[simp] theorem pmemWrite_dec (a : Nat) (v : Word) : (s.pmemWrite a v).dec = s.dec := rfl

@[simp] theorem pmemWrite_gmem (a : Nat) (v : Word) : (s.pmemWrite a v).gmem = s.gmem := rfl

@[simp] theorem pmemWrite_pmem (a : Nat) (v : Word) : (s.pmemWrite a v).pmem = Mem.store s.pmem a v := rfl

@[simp] theorem pmemWrite_omem (a : Nat) (v : Word) : (s.pmemWrite a v).omem = s.omem := rfl

@[simp] theorem pmemWrite_inbox (a : Nat) (v : Word) : (s.pmemWrite a v).inbox = s.inbox := rfl

@[simp] theorem pmemWrite_outbox (a : Nat) (v : Word) : (s.pmemWrite a v).outbox = s.outbox := rfl

@[simp] theorem pmemWrite_epoch (a : Nat) (v : Word) : (s.pmemWrite a v).epoch = s.epoch := rfl

@[simp] theorem pmemWrite_freeIx (a : Nat) (v : Word) : (s.pmemWrite a v).freeIx = s.freeIx := rfl

/-! ### omemWrite -/

@[simp] theorem omemWrite_cfg (a : Nat) (v : Byte) : (s.omemWrite a v).cfg = s.cfg := rfl

@[simp] theorem omemWrite_width (a : Nat) (v : Byte) : (s.omemWrite a v).width = s.width := rfl

@[simp] theorem omemWrite_height (a : Nat) (v : Byte) : (s.omemWrite a v).height = s.height := rfl

@[simp] theorem omemWrite_plen (a : Nat) (v : Byte) : (s.omemWrite a v).plen = s.plen := rfl

@[simp] theorem omemWrite_olen (a : Nat) (v : Byte) : (s.omemWrite a v).olen = s.olen := rfl

@[simp] theorem omemWrite_cause (a : Nat) (v : Byte) : (s.omemWrite a v).cause = s.cause := rfl

@[simp] theorem omemWrite_faddr (a : Nat) (v : Byte) : (s.omemWrite a v).faddr = s.faddr := rfl

@[simp] theorem omemWrite_fdata (a : Nat) (v : Byte) : (s.omemWrite a v).fdata = s.fdata := rfl

@[simp] theorem omemWrite_trunc (a : Nat) (v : Byte) : (s.omemWrite a v).trunc = s.trunc := rfl

@[simp] theorem omemWrite_mfound (a : Nat) (v : Byte) : (s.omemWrite a v).mfound = s.mfound := rfl

@[simp] theorem omemWrite_taildrop (a : Nat) (v : Byte) : (s.omemWrite a v).taildrop = s.taildrop := rfl

@[simp] theorem omemWrite_enc (a : Nat) (v : Byte) : (s.omemWrite a v).enc = s.enc := rfl

@[simp] theorem omemWrite_dec (a : Nat) (v : Byte) : (s.omemWrite a v).dec = s.dec := rfl

@[simp] theorem omemWrite_gmem (a : Nat) (v : Byte) : (s.omemWrite a v).gmem = s.gmem := rfl

@[simp] theorem omemWrite_pmem (a : Nat) (v : Byte) : (s.omemWrite a v).pmem = s.pmem := rfl

@[simp] theorem omemWrite_omem (a : Nat) (v : Byte) : (s.omemWrite a v).omem = Mem.store s.omem a v := rfl

@[simp] theorem omemWrite_inbox (a : Nat) (v : Byte) : (s.omemWrite a v).inbox = s.inbox := rfl

@[simp] theorem omemWrite_outbox (a : Nat) (v : Byte) : (s.omemWrite a v).outbox = s.outbox := rfl

@[simp] theorem omemWrite_epoch (a : Nat) (v : Byte) : (s.omemWrite a v).epoch = s.epoch := rfl

@[simp] theorem omemWrite_freeIx (a : Nat) (v : Byte) : (s.omemWrite a v).freeIx = s.freeIx := rfl

/-! ### replyWord -/

@[simp] theorem replyWord_cfg (v : Word) : (s.replyWord v).cfg = s.cfg := rfl

@[simp] theorem replyWord_width (v : Word) : (s.replyWord v).width = s.width := rfl

@[simp] theorem replyWord_height (v : Word) : (s.replyWord v).height = s.height := rfl

@[simp] theorem replyWord_plen (v : Word) : (s.replyWord v).plen = s.plen := rfl

@[simp] theorem replyWord_olen (v : Word) : (s.replyWord v).olen = s.olen := rfl

@[simp] theorem replyWord_cause (v : Word) : (s.replyWord v).cause = s.cause := rfl

@[simp] theorem replyWord_faddr (v : Word) : (s.replyWord v).faddr = s.faddr := rfl

@[simp] theorem replyWord_fdata (v : Word) : (s.replyWord v).fdata = s.fdata := rfl

@[simp] theorem replyWord_trunc (v : Word) : (s.replyWord v).trunc = s.trunc := rfl

@[simp] theorem replyWord_mfound (v : Word) : (s.replyWord v).mfound = s.mfound := rfl

@[simp] theorem replyWord_taildrop (v : Word) : (s.replyWord v).taildrop = s.taildrop := rfl

@[simp] theorem replyWord_enc (v : Word) : (s.replyWord v).enc = s.enc := rfl

@[simp] theorem replyWord_dec (v : Word) : (s.replyWord v).dec = s.dec := rfl

@[simp] theorem replyWord_gmem (v : Word) : (s.replyWord v).gmem = s.gmem := rfl

@[simp] theorem replyWord_pmem (v : Word) : (s.replyWord v).pmem = s.pmem := rfl

@[simp] theorem replyWord_omem (v : Word) : (s.replyWord v).omem = s.omem := rfl

@[simp] theorem replyWord_inbox (v : Word) : (s.replyWord v).inbox = s.inbox := rfl

@[simp] theorem replyWord_outbox (v : Word) : (s.replyWord v).outbox = .word v :: s.outbox := rfl

@[simp] theorem replyWord_epoch (v : Word) : (s.replyWord v).epoch = s.epoch := rfl

@[simp] theorem replyWord_freeIx (v : Word) : (s.replyWord v).freeIx = s.freeIx := rfl

/-! ### replyByte -/

@[simp] theorem replyByte_cfg (v : Byte) : (s.replyByte v).cfg = s.cfg := rfl

@[simp] theorem replyByte_width (v : Byte) : (s.replyByte v).width = s.width := rfl

@[simp] theorem replyByte_height (v : Byte) : (s.replyByte v).height = s.height := rfl

@[simp] theorem replyByte_plen (v : Byte) : (s.replyByte v).plen = s.plen := rfl

@[simp] theorem replyByte_olen (v : Byte) : (s.replyByte v).olen = s.olen := rfl

@[simp] theorem replyByte_cause (v : Byte) : (s.replyByte v).cause = s.cause := rfl

@[simp] theorem replyByte_faddr (v : Byte) : (s.replyByte v).faddr = s.faddr := rfl

@[simp] theorem replyByte_fdata (v : Byte) : (s.replyByte v).fdata = s.fdata := rfl

@[simp] theorem replyByte_trunc (v : Byte) : (s.replyByte v).trunc = s.trunc := rfl

@[simp] theorem replyByte_mfound (v : Byte) : (s.replyByte v).mfound = s.mfound := rfl

@[simp] theorem replyByte_taildrop (v : Byte) : (s.replyByte v).taildrop = s.taildrop := rfl

@[simp] theorem replyByte_enc (v : Byte) : (s.replyByte v).enc = s.enc := rfl

@[simp] theorem replyByte_dec (v : Byte) : (s.replyByte v).dec = s.dec := rfl

@[simp] theorem replyByte_gmem (v : Byte) : (s.replyByte v).gmem = s.gmem := rfl

@[simp] theorem replyByte_pmem (v : Byte) : (s.replyByte v).pmem = s.pmem := rfl

@[simp] theorem replyByte_omem (v : Byte) : (s.replyByte v).omem = s.omem := rfl

@[simp] theorem replyByte_inbox (v : Byte) : (s.replyByte v).inbox = s.inbox := rfl

@[simp] theorem replyByte_outbox (v : Byte) : (s.replyByte v).outbox = .byte v :: s.outbox := rfl

@[simp] theorem replyByte_epoch (v : Byte) : (s.replyByte v).epoch = s.epoch := rfl

@[simp] theorem replyByte_freeIx (v : Byte) : (s.replyByte v).freeIx = s.freeIx := rfl

/-! ### raise -/

@[simp] theorem raise_cfg (c : Cause) (a : Nat) (d : Word) : (s.raise c a d).cfg = s.cfg := by unfold raise; split <;> rfl

@[simp] theorem raise_width (c : Cause) (a : Nat) (d : Word) : (s.raise c a d).width = s.width := by unfold raise; split <;> rfl

@[simp] theorem raise_height (c : Cause) (a : Nat) (d : Word) : (s.raise c a d).height = s.height := by unfold raise; split <;> rfl

@[simp] theorem raise_plen (c : Cause) (a : Nat) (d : Word) : (s.raise c a d).plen = s.plen := by unfold raise; split <;> rfl

@[simp] theorem raise_olen (c : Cause) (a : Nat) (d : Word) : (s.raise c a d).olen = s.olen := by unfold raise; split <;> rfl

@[simp] theorem raise_trunc (c : Cause) (a : Nat) (d : Word) : (s.raise c a d).trunc = s.trunc := by unfold raise; split <;> rfl

@[simp] theorem raise_mfound (c : Cause) (a : Nat) (d : Word) : (s.raise c a d).mfound = s.mfound := by unfold raise; split <;> rfl

@[simp] theorem raise_taildrop (c : Cause) (a : Nat) (d : Word) : (s.raise c a d).taildrop = s.taildrop := by unfold raise; split <;> rfl

@[simp] theorem raise_enc (c : Cause) (a : Nat) (d : Word) : (s.raise c a d).enc = s.enc := by unfold raise; split <;> rfl

@[simp] theorem raise_dec (c : Cause) (a : Nat) (d : Word) : (s.raise c a d).dec = s.dec := by unfold raise; split <;> rfl

@[simp] theorem raise_gmem (c : Cause) (a : Nat) (d : Word) : (s.raise c a d).gmem = s.gmem := by unfold raise; split <;> rfl

@[simp] theorem raise_pmem (c : Cause) (a : Nat) (d : Word) : (s.raise c a d).pmem = s.pmem := by unfold raise; split <;> rfl

@[simp] theorem raise_omem (c : Cause) (a : Nat) (d : Word) : (s.raise c a d).omem = s.omem := by unfold raise; split <;> rfl

@[simp] theorem raise_inbox (c : Cause) (a : Nat) (d : Word) : (s.raise c a d).inbox = s.inbox := by unfold raise; split <;> rfl

@[simp] theorem raise_outbox (c : Cause) (a : Nat) (d : Word) : (s.raise c a d).outbox = s.outbox := by unfold raise; split <;> rfl

@[simp] theorem raise_epoch (c : Cause) (a : Nat) (d : Word) : (s.raise c a d).epoch = s.epoch := by unfold raise; split <;> rfl

@[simp] theorem raise_freeIx (c : Cause) (a : Nat) (d : Word) : (s.raise c a d).freeIx = s.freeIx := by unfold raise; split <;> rfl

/-! ### refuseWord -/

@[simp] theorem refuseWord_cfg (c : Cause) (a : Nat) (sp : Space) : (s.refuseWord c a sp).cfg = s.cfg := by simp [refuseWord]

@[simp] theorem refuseWord_width (c : Cause) (a : Nat) (sp : Space) : (s.refuseWord c a sp).width = s.width := by simp [refuseWord]

@[simp] theorem refuseWord_height (c : Cause) (a : Nat) (sp : Space) : (s.refuseWord c a sp).height = s.height := by simp [refuseWord]

@[simp] theorem refuseWord_plen (c : Cause) (a : Nat) (sp : Space) : (s.refuseWord c a sp).plen = s.plen := by simp [refuseWord]

@[simp] theorem refuseWord_olen (c : Cause) (a : Nat) (sp : Space) : (s.refuseWord c a sp).olen = s.olen := by simp [refuseWord]

@[simp] theorem refuseWord_cause (c : Cause) (a : Nat) (sp : Space) : (s.refuseWord c a sp).cause = (s.raise c a sp.code).cause := rfl

@[simp] theorem refuseWord_faddr (c : Cause) (a : Nat) (sp : Space) : (s.refuseWord c a sp).faddr = (s.raise c a sp.code).faddr := rfl

@[simp] theorem refuseWord_fdata (c : Cause) (a : Nat) (sp : Space) : (s.refuseWord c a sp).fdata = (s.raise c a sp.code).fdata := rfl

@[simp] theorem refuseWord_trunc (c : Cause) (a : Nat) (sp : Space) : (s.refuseWord c a sp).trunc = s.trunc := by simp [refuseWord]

@[simp] theorem refuseWord_mfound (c : Cause) (a : Nat) (sp : Space) : (s.refuseWord c a sp).mfound = s.mfound := by simp [refuseWord]

@[simp] theorem refuseWord_taildrop (c : Cause) (a : Nat) (sp : Space) : (s.refuseWord c a sp).taildrop = s.taildrop := by simp [refuseWord]

@[simp] theorem refuseWord_enc (c : Cause) (a : Nat) (sp : Space) : (s.refuseWord c a sp).enc = s.enc := by simp [refuseWord]

@[simp] theorem refuseWord_dec (c : Cause) (a : Nat) (sp : Space) : (s.refuseWord c a sp).dec = s.dec := by simp [refuseWord]

@[simp] theorem refuseWord_gmem (c : Cause) (a : Nat) (sp : Space) : (s.refuseWord c a sp).gmem = s.gmem := by simp [refuseWord]

@[simp] theorem refuseWord_pmem (c : Cause) (a : Nat) (sp : Space) : (s.refuseWord c a sp).pmem = s.pmem := by simp [refuseWord]

@[simp] theorem refuseWord_omem (c : Cause) (a : Nat) (sp : Space) : (s.refuseWord c a sp).omem = s.omem := by simp [refuseWord]

@[simp] theorem refuseWord_inbox (c : Cause) (a : Nat) (sp : Space) : (s.refuseWord c a sp).inbox = s.inbox := by simp [refuseWord]

@[simp] theorem refuseWord_epoch (c : Cause) (a : Nat) (sp : Space) : (s.refuseWord c a sp).epoch = s.epoch := by simp [refuseWord]

@[simp] theorem refuseWord_freeIx (c : Cause) (a : Nat) (sp : Space) : (s.refuseWord c a sp).freeIx = s.freeIx + 1 := rfl

@[simp] theorem refuseWord_outbox (c : Cause) (a : Nat) (sp : Space) :
    (s.refuseWord c a sp).outbox = .word (Config.refusedWord s.freeIx) :: s.outbox := by simp [refuseWord]

/-! ### refuseByte -/

@[simp] theorem refuseByte_cfg (c : Cause) (a : Nat) (sp : Space) : (s.refuseByte c a sp).cfg = s.cfg := by simp [refuseByte]

@[simp] theorem refuseByte_width (c : Cause) (a : Nat) (sp : Space) : (s.refuseByte c a sp).width = s.width := by simp [refuseByte]

@[simp] theorem refuseByte_height (c : Cause) (a : Nat) (sp : Space) : (s.refuseByte c a sp).height = s.height := by simp [refuseByte]

@[simp] theorem refuseByte_plen (c : Cause) (a : Nat) (sp : Space) : (s.refuseByte c a sp).plen = s.plen := by simp [refuseByte]

@[simp] theorem refuseByte_olen (c : Cause) (a : Nat) (sp : Space) : (s.refuseByte c a sp).olen = s.olen := by simp [refuseByte]

@[simp] theorem refuseByte_cause (c : Cause) (a : Nat) (sp : Space) : (s.refuseByte c a sp).cause = (s.raise c a sp.code).cause := rfl

@[simp] theorem refuseByte_faddr (c : Cause) (a : Nat) (sp : Space) : (s.refuseByte c a sp).faddr = (s.raise c a sp.code).faddr := rfl

@[simp] theorem refuseByte_fdata (c : Cause) (a : Nat) (sp : Space) : (s.refuseByte c a sp).fdata = (s.raise c a sp.code).fdata := rfl

@[simp] theorem refuseByte_trunc (c : Cause) (a : Nat) (sp : Space) : (s.refuseByte c a sp).trunc = s.trunc := by simp [refuseByte]

@[simp] theorem refuseByte_mfound (c : Cause) (a : Nat) (sp : Space) : (s.refuseByte c a sp).mfound = s.mfound := by simp [refuseByte]

@[simp] theorem refuseByte_taildrop (c : Cause) (a : Nat) (sp : Space) : (s.refuseByte c a sp).taildrop = s.taildrop := by simp [refuseByte]

@[simp] theorem refuseByte_enc (c : Cause) (a : Nat) (sp : Space) : (s.refuseByte c a sp).enc = s.enc := by simp [refuseByte]

@[simp] theorem refuseByte_dec (c : Cause) (a : Nat) (sp : Space) : (s.refuseByte c a sp).dec = s.dec := by simp [refuseByte]

@[simp] theorem refuseByte_gmem (c : Cause) (a : Nat) (sp : Space) : (s.refuseByte c a sp).gmem = s.gmem := by simp [refuseByte]

@[simp] theorem refuseByte_pmem (c : Cause) (a : Nat) (sp : Space) : (s.refuseByte c a sp).pmem = s.pmem := by simp [refuseByte]

@[simp] theorem refuseByte_omem (c : Cause) (a : Nat) (sp : Space) : (s.refuseByte c a sp).omem = s.omem := by simp [refuseByte]

@[simp] theorem refuseByte_inbox (c : Cause) (a : Nat) (sp : Space) : (s.refuseByte c a sp).inbox = s.inbox := by simp [refuseByte]

@[simp] theorem refuseByte_epoch (c : Cause) (a : Nat) (sp : Space) : (s.refuseByte c a sp).epoch = s.epoch := by simp [refuseByte]

@[simp] theorem refuseByte_freeIx (c : Cause) (a : Nat) (sp : Space) : (s.refuseByte c a sp).freeIx = s.freeIx + 1 := rfl

@[simp] theorem refuseByte_outbox (c : Cause) (a : Nat) (sp : Space) :
    (s.refuseByte c a sp).outbox = .byte (Config.refusedByte s.freeIx) :: s.outbox := by simp [refuseByte]

/-! ### clearAll -/

@[simp] theorem clearAll_cfg : (s.clearAll).cfg = s.cfg := rfl

@[simp] theorem clearAll_width : (s.clearAll).width = s.width := rfl

@[simp] theorem clearAll_height : (s.clearAll).height = s.height := rfl

@[simp] theorem clearAll_plen : (s.clearAll).plen = s.plen := rfl

@[simp] theorem clearAll_olen : (s.clearAll).olen = s.olen := rfl

@[simp] theorem clearAll_cause : (s.clearAll).cause = 0#4 := rfl

@[simp] theorem clearAll_faddr : (s.clearAll).faddr = 0#32 := rfl

@[simp] theorem clearAll_fdata : (s.clearAll).fdata = 0#32 := rfl

@[simp] theorem clearAll_trunc : (s.clearAll).trunc = false := rfl

@[simp] theorem clearAll_mfound : (s.clearAll).mfound = false := rfl

@[simp] theorem clearAll_taildrop : (s.clearAll).taildrop = false := rfl

@[simp] theorem clearAll_enc : (s.clearAll).enc = { s.enc with state := .idle } := rfl

@[simp] theorem clearAll_dec : (s.clearAll).dec = { s.dec with state := .idle } := rfl

@[simp] theorem clearAll_gmem : (s.clearAll).gmem = s.gmem := rfl

@[simp] theorem clearAll_pmem : (s.clearAll).pmem = s.pmem := rfl

@[simp] theorem clearAll_omem : (s.clearAll).omem = s.omem := rfl

@[simp] theorem clearAll_inbox : (s.clearAll).inbox = s.inbox := rfl

@[simp] theorem clearAll_outbox : (s.clearAll).outbox = s.outbox := rfl

@[simp] theorem clearAll_epoch : (s.clearAll).epoch = s.epoch := rfl

@[simp] theorem clearAll_freeIx : (s.clearAll).freeIx = s.freeIx := rfl

/-! ### deliver -/

@[simp] theorem deliver_cfg : (s.deliver).cfg = s.cfg := rfl

@[simp] theorem deliver_width : (s.deliver).width = s.width := rfl

@[simp] theorem deliver_height : (s.deliver).height = s.height := rfl

@[simp] theorem deliver_plen : (s.deliver).plen = s.plen := rfl

@[simp] theorem deliver_olen : (s.deliver).olen = s.olen := rfl

@[simp] theorem deliver_cause : (s.deliver).cause = s.cause := rfl

@[simp] theorem deliver_faddr : (s.deliver).faddr = s.faddr := rfl

@[simp] theorem deliver_fdata : (s.deliver).fdata = s.fdata := rfl

@[simp] theorem deliver_trunc : (s.deliver).trunc = s.trunc := rfl

@[simp] theorem deliver_mfound : (s.deliver).mfound = s.mfound := rfl

@[simp] theorem deliver_taildrop : (s.deliver).taildrop = s.taildrop := rfl

@[simp] theorem deliver_enc : (s.deliver).enc = s.enc := rfl

@[simp] theorem deliver_dec : (s.deliver).dec = { s.dec with oidx := s.dec.oidx + 1#32 } := rfl

@[simp] theorem deliver_gmem : (s.deliver).gmem = s.gmem := rfl

@[simp] theorem deliver_pmem : (s.deliver).pmem = s.pmem := rfl

@[simp] theorem deliver_omem : (s.deliver).omem = Mem.store s.omem s.dec.oidx.toNat s.dec.hold := rfl

@[simp] theorem deliver_inbox : (s.deliver).inbox = s.inbox := rfl

@[simp] theorem deliver_outbox : (s.deliver).outbox = s.outbox := rfl

@[simp] theorem deliver_epoch : (s.deliver).epoch = s.epoch := rfl

@[simp] theorem deliver_freeIx : (s.deliver).freeIx = s.freeIx := rfl

/-! ### takeTurn -/

@[simp] theorem takeTurn_cfg : (s.takeTurn).cfg = s.cfg := by unfold takeTurn; split <;> first | rfl | (split <;> rfl)

@[simp] theorem takeTurn_width : (s.takeTurn).width = s.width := by unfold takeTurn; split <;> first | rfl | (split <;> rfl)

@[simp] theorem takeTurn_height : (s.takeTurn).height = s.height := by unfold takeTurn; split <;> first | rfl | (split <;> rfl)

@[simp] theorem takeTurn_plen : (s.takeTurn).plen = s.plen := by unfold takeTurn; split <;> first | rfl | (split <;> rfl)

@[simp] theorem takeTurn_olen : (s.takeTurn).olen = s.olen := by unfold takeTurn; split <;> first | rfl | (split <;> rfl)

@[simp] theorem takeTurn_cause : (s.takeTurn).cause = s.cause := by unfold takeTurn; split <;> first | rfl | (split <;> rfl)

@[simp] theorem takeTurn_faddr : (s.takeTurn).faddr = s.faddr := by unfold takeTurn; split <;> first | rfl | (split <;> rfl)

@[simp] theorem takeTurn_fdata : (s.takeTurn).fdata = s.fdata := by unfold takeTurn; split <;> first | rfl | (split <;> rfl)

@[simp] theorem takeTurn_trunc : (s.takeTurn).trunc = s.trunc := by unfold takeTurn; split <;> first | rfl | (split <;> rfl)

@[simp] theorem takeTurn_mfound : (s.takeTurn).mfound = s.mfound := by unfold takeTurn; split <;> first | rfl | (split <;> rfl)

@[simp] theorem takeTurn_taildrop : (s.takeTurn).taildrop = s.taildrop := by unfold takeTurn; split <;> first | rfl | (split <;> rfl)

@[simp] theorem takeTurn_enc : (s.takeTurn).enc = s.enc := by unfold takeTurn; split <;> first | rfl | (split <;> rfl)

@[simp] theorem takeTurn_dec : (s.takeTurn).dec = s.dec := by unfold takeTurn; split <;> first | rfl | (split <;> rfl)

@[simp] theorem takeTurn_gmem : (s.takeTurn).gmem = s.gmem := by unfold takeTurn; split <;> first | rfl | (split <;> rfl)

@[simp] theorem takeTurn_pmem : (s.takeTurn).pmem = s.pmem := by unfold takeTurn; split <;> first | rfl | (split <;> rfl)

@[simp] theorem takeTurn_omem : (s.takeTurn).omem = s.omem := by unfold takeTurn; split <;> first | rfl | (split <;> rfl)

@[simp] theorem takeTurn_outbox : (s.takeTurn).outbox = s.outbox := by unfold takeTurn; split <;> first | rfl | (split <;> rfl)

@[simp] theorem takeTurn_epoch : (s.takeTurn).epoch = s.epoch := by unfold takeTurn; split <;> first | rfl | (split <;> rfl)

@[simp] theorem takeTurn_freeIx : (s.takeTurn).freeIx = s.freeIx := by unfold takeTurn; split <;> first | rfl | (split <;> rfl)

end Sys2Proof.Machine.State
end

