-- ==== Sys2Proof/Laws/Memory.lean ====
section
/-! SUPPORT. Memories: a read after a write, everything else left alone, and the canonical form kept by every memory
operation. -/

namespace Sys2Proof.Machine

/-! ### Lists of elements -/

/-- A read of a memory after a write. -/
theorem Mem.lookup_store {w : Nat} (m : Mem w) (a b : Nat) (v : BitVec w) :
    Mem.lookup (Mem.store m a v) b = if b = a then some v else Mem.lookup m b := by
  induction m with
  | nil => simp [Mem.store, Mem.lookup, eq_comm]
  | cons e m ih =>
    obtain ⟨k, x⟩ := e
    by_cases h1 : a < k
    · simp [Mem.store, Mem.lookup, h1, eq_comm]
    · by_cases h2 : a = k
      · subst h2
        by_cases hb : b = a
        · simp [Mem.store, Mem.lookup, hb]
        · simp [Mem.store, Mem.lookup, hb, Ne.symm hb]
      · by_cases hb : k = b
        · subst hb; simp [Mem.store, Mem.lookup, h1, h2, Ne.symm h2]
        · simp [Mem.store, Mem.lookup, h1, h2, hb, ih]

/-- In a canonical memory the first address is the least. -/
theorem Mem.wf_cons_iff {w : Nat} (k : Nat) (x : BitVec w) (m : Mem w) :
    Mem.wf ((k, x) :: m) = true ↔ (∀ e ∈ m, k < e.1) ∧ Mem.wf m = true := by
  induction m generalizing k x with
  | nil => simp [Mem.wf]
  | cons e m ih =>
    obtain ⟨b, y⟩ := e
    simp only [Mem.wf, Bool.and_eq_true, decide_eq_true_eq, List.forall_mem_cons]
    constructor
    · rintro ⟨hk, hw⟩
      exact ⟨⟨hk, fun e he => lt_trans hk (((ih b y).1 hw).1 e he)⟩, hw⟩
    · rintro ⟨⟨hk, -⟩, hw⟩
      exact ⟨hk, hw⟩

/-- What a write adds is its own entry; no other entry is new. -/
theorem Mem.mem_store {w : Nat} {m : Mem w} {a : Nat} {v : BitVec w} {e : Nat × BitVec w} (h : e ∈ Mem.store m a v) :
    e = (a, v) ∨ e ∈ m := by
  induction m with
  | nil => simpa [Mem.store] using h
  | cons d m ih =>
    obtain ⟨k, x⟩ := d
    simp only [Mem.store] at h
    split_ifs at h
    · simpa using h
    · rcases List.mem_cons.1 h with h | h
      · exact .inl h
      · exact .inr (List.mem_cons_of_mem _ h)
    · rcases List.mem_cons.1 h with h | h
      · exact .inr (h ▸ List.mem_cons_self)
      · exact (ih h).imp_right (List.mem_cons_of_mem _)

/-- A write keeps the canonical form. -/
theorem Mem.store_wf {w : Nat} {m : Mem w} (a : Nat) (v : BitVec w) (h : Mem.wf m = true) :
    Mem.wf (Mem.store m a v) = true := by
  induction m with
  | nil => rfl
  | cons d m ih =>
    obtain ⟨k, x⟩ := d
    obtain ⟨hlt, hm⟩ := (Mem.wf_cons_iff k x m).1 h
    simp only [Mem.store]
    split_ifs with h1 h2
    · refine (Mem.wf_cons_iff a v _).2 ⟨?_, h⟩
      rintro e he
      rcases List.mem_cons.1 he with rfl | he
      · exact h1
      · exact lt_trans h1 (hlt e he)
    · exact (Mem.wf_cons_iff a v m).2 ⟨h2 ▸ hlt, hm⟩
    · refine (Mem.wf_cons_iff k x _).2 ⟨?_, ih hm⟩
      rintro e he
      rcases Mem.mem_store he with rfl | he
      · change k < a; omega
      · exact hlt e he

/-- A write inside the space keeps the memory within it. -/
theorem Mem.within_store {w : Nat} {m : Mem w} {size a : Nat} (v : BitVec w) (h : Mem.within m size) (ha : a < size) :
    Mem.within (Mem.store m a v) size := by
  refine ⟨Mem.store_wf a v h.1, ?_⟩
  rintro e he
  rcases Mem.mem_store he with rfl | he
  · exact ha
  · exact h.2 e he

theorem Mem.within_nil {w : Nat} (size : Nat) : Mem.within ([] : Mem w) size := ⟨rfl, by simp⟩

/-- Two canonical memories that hold the same written value at every address are the same list. -/
theorem Mem.ext_of_wf {w : Nat} {m n : Mem w} (hm : Mem.wf m = true) (hn : Mem.wf n = true)
    (h : ∀ a, Mem.lookup m a = Mem.lookup n a) : m = n := by
  have low : ∀ {l : Mem w} {a : Nat}, (∀ e ∈ l, a < e.1) → Mem.lookup l a = none := by
    intro l a hl
    induction l with
    | nil => rfl
    | cons e l ih =>
      have := hl e List.mem_cons_self
      simp only [Mem.lookup, if_neg (by omega : ¬e.1 = a)]
      exact ih fun e he => hl e (List.mem_cons_of_mem _ he)
  induction m generalizing n with
  | nil =>
    cases n with
    | nil => rfl
    | cons e n => simpa [Mem.lookup] using h e.1
  | cons d m ih =>
    obtain ⟨k, x⟩ := d
    obtain ⟨hk, hm'⟩ := (Mem.wf_cons_iff k x m).1 hm
    cases n with
    | nil => simpa [Mem.lookup] using h k
    | cons e n =>
      obtain ⟨l, y⟩ := e
      obtain ⟨hl, hn'⟩ := (Mem.wf_cons_iff l y n).1 hn
      have hkl : k = l := by
        rcases Nat.lt_trichotomy k l with hlt | heq | hlt
        · have h0 := h k
          simp only [Mem.lookup, if_neg (by omega : ¬l = k)] at h0
          rw [low fun e he => lt_trans hlt (hl e he)] at h0
          cases h0
        · exact heq
        · have h0 := h l
          simp only [Mem.lookup, if_neg (by omega : ¬k = l)] at h0
          rw [low fun e he => lt_trans hlt (hk e he)] at h0
          cases h0
      subst hkl
      have hxy : x = y := by simpa [Mem.lookup] using h k
      subst hxy
      refine congrArg _ (ih hm' hn' fun a => ?_)
      by_cases ha : k = a
      · subst ha; rw [low hk, low hl]
      · simpa [Mem.lookup, ha] using h a

/-! ### Reading the elements of a state -/

namespace State

/-- An element reads the same where the written values and the unknown contents are the same. -/
theorem gmemRead_congr {s t : State} (hm : t.gmem = s.gmem) (he : t.epoch = s.epoch) (a : Nat) :
    t.gmemRead a = s.gmemRead a := by simp [gmemRead, hm, he]

theorem pmemRead_congr {s t : State} (hm : t.pmem = s.pmem) (he : t.epoch = s.epoch) (a : Nat) :
    t.pmemRead a = s.pmemRead a := by simp [pmemRead, hm, he]

theorem omemRead_congr {s t : State} (hm : t.omem = s.omem) (he : t.epoch = s.epoch) (a : Nat) :
    t.omemRead a = s.omemRead a := by simp [omemRead, hm, he]

/-- States with the same memories and the same unknown contents read the same everywhere. -/
theorem sameMemories_of_eq {s t : State} (hg : t.gmem = s.gmem) (hp : t.pmem = s.pmem) (ho : t.omem = s.omem)
    (he : t.epoch = s.epoch) : s.SameMemories t :=
  ⟨gmemRead_congr hg he, pmemRead_congr hp he, omemRead_congr ho he⟩

variable (s : State) (a b : Nat)

/-- A read of GMEM after a write. -/
theorem gmemRead_gmemWrite (v : Byte) :
    (s.gmemWrite a v).gmemRead b = if b = a then v else s.gmemRead b := by
  unfold gmemRead
  simp only [gmemWrite_gmem, gmemWrite_epoch, Mem.lookup_store s.gmem a b v]
  split <;> rfl

/-- A read of PMEM after a write. -/
theorem pmemRead_pmemWrite (v : Word) :
    (s.pmemWrite a v).pmemRead b = if b = a then v else s.pmemRead b := by
  unfold pmemRead
  simp only [pmemWrite_pmem, pmemWrite_epoch, Mem.lookup_store s.pmem a b v]
  split <;> rfl

/-- A read of OMEM after a write. -/
theorem omemRead_omemWrite (v : Byte) :
    (s.omemWrite a v).omemRead b = if b = a then v else s.omemRead b := by
  unfold omemRead
  simp only [omemWrite_omem, omemWrite_epoch, Mem.lookup_store s.omem a b v]
  split <;> rfl

end State
end Sys2Proof.Machine
end

