-- ==== Sys2Proof/Laws/Ops.lean ====
section
/-! SUPPORT. One lemma per shared operation: everything it can do. -/

namespace Sys2Proof.Machine

/-! ### State codes -/

@[simp] theorem EncState.code_eq_one (e : EncState) : e.code = 1#3 ↔ e = .validate := by cases e <;> decide
@[simp] theorem EncState.code_eq_two (e : EncState) : e.code = 2#3 ↔ e = .fetch := by cases e <;> decide
@[simp] theorem EncState.code_eq_three (e : EncState) : e.code = 3#3 ↔ e = .write := by cases e <;> decide
@[simp] theorem DecState.code_eq_one (d : DecState) : d.code = 1#2 ↔ d = .scanning := by cases d <;> decide

theorem EncState.running_iff (e : EncState) : e.running = true ↔ e = .validate ∨ e = .fetch ∨ e = .write := by
  cases e <;> decide

theorem DecState.running_iff (d : DecState) : d.running = true ↔ d = .scanning := by cases d <;> decide

theorem Cause.code_ne_zero (c : Cause) : c.code ≠ 0#4 := by cases c <;> decide

theorem Cause.code_le (c : Cause) : c.code.toNat ≤ 6 := by cases c <;> decide

/-! ### Flags -/

theorem State.busy_iff (s : State) :
    s.busy = true ↔ s.enc.state.running = true ∨ s.dec.state.running = true := by simp [State.busy]

theorem State.busy_eq_false_iff (s : State) :
    s.busy = false ↔ s.enc.state.running = false ∧ s.dec.state.running = false := by simp [State.busy]

@[simp] theorem State.err_iff (s : State) : s.err = true ↔ s.cause ≠ 0#4 := by simp [State.err]

/-- BUSY depends on the two unit states only. -/
theorem State.busy_congr {s t : State} (he : t.enc.state = s.enc.state) (hd : t.dec.state = s.dec.state) :
    t.busy = s.busy := by simp [State.busy, he, hd]

/-- Where each field of a word laid out as STATUS is (10_state.md R23). -/
theorem status_layout (e t m r b : Bool) (d : BitVec 2) (c : BitVec 3) :
    let w : Word := 0#22 ++ (BitVec.ofBool e ++ (BitVec.ofBool t ++ (BitVec.ofBool m ++ (BitVec.ofBool r ++
      (d ++ (c ++ BitVec.ofBool b))))))
    w.getLsbD 0 = b ∧ w.extractLsb' 1 3 = c ∧ w.extractLsb' 4 2 = d ∧ w.getLsbD 6 = r ∧ w.getLsbD 7 = m ∧
      w.getLsbD 8 = t ∧ w.getLsbD 9 = e ∧ w.extractLsb' 10 22 = 0#22 := by
  revert e t m r b d c
  decide

/-! ### Recording a fault -/

/-- No fault is latched: the fault is recorded. -/
theorem State.raise_of_clear {s : State} (h : s.cause = 0#4) (c : Cause) (a : Nat) (d : Word) :
    s.raise c a d = { s with cause := c.code, faddr := BitVec.ofNat 32 a, fdata := d } := by simp [State.raise, h]

/-- A fault is latched: nothing is recorded. -/
theorem State.raise_of_latched {s : State} (h : s.cause ≠ 0#4) (c : Cause) (a : Nat) (d : Word) :
    s.raise c a d = s := by simp [State.raise, h]

theorem State.raise_cause_ne_zero (s : State) (c : Cause) (a : Nat) (d : Word) : (s.raise c a d).cause ≠ 0#4 := by
  by_cases h : s.cause = 0#4
  · simpa [State.raise_of_clear h] using c.code_ne_zero
  · simpa [State.raise_of_latched h] using h

/-! ### Host access -/

theorem State.accessFault_eq_none_iff (s : State) (a size : Nat) :
    s.accessFault a size = none ↔ s.busy = false ∧ a < size := by
  unfold State.accessFault; split_ifs <;> simp_all

theorem State.accessFault_of_busy {s : State} (h : s.busy = true) (a size : Nat) :
    s.accessFault a size = some .accessBusy := by simp [State.accessFault, h]

theorem State.accessFault_of_range {s : State} (h : s.busy = false) {a size : Nat} (ha : size ≤ a) :
    s.accessFault a size = some .addrRange := by simp [State.accessFault, h, ha]

/-! ### Micro-operations -/

/-- A micro-operation of ENC answers a next state exactly where it is selected. -/
theorem encStep_eq_next_iff (i : Instr) (f : State → State) (s t : State) :
    encStep i f s = .next t ↔ s.encSelected = .ok i ∧ t = f s := by
  unfold encStep; split_ifs with h <;> simp [h, eq_comm]

/-- A micro-operation of DEC answers a next state exactly where it is selected. -/
theorem decStep_eq_next_iff (i : Instr) (f : State → State) (s t : State) :
    decStep i f s = .next t ↔ s.decSelected = .ok i ∧ t = f s := by
  unfold decStep; split_ifs with h <;> simp [h, eq_comm]

/-- 30_encoding.md R104, the rows of ENC: where each micro-operation is selected. -/
def encGuard (s : State) : Instr → Prop
  | .eVend => s.enc.state = .validate ∧ s.enc.vidx = s.plen
  | .eVfail => s.enc.state = .validate ∧ s.enc.vidx.toNat < s.plen.toNat ∧ 255 < (s.pmemRead s.enc.vidx.toNat).toNat
  | .eVchk => s.enc.state = .validate ∧ s.enc.vidx.toNat < s.plen.toNat ∧ (s.pmemRead s.enc.vidx.toNat).toNat ≤ 255
  | .eComplete => s.enc.state = .fetch ∧ s.enc.bidx.toNat = s.plen.toNat + 2
  | .eFetch => s.enc.state = .fetch ∧ s.enc.bidx.toNat < s.plen.toNat + 2
  | .eTrunc => s.enc.state = .write ∧ s.encExhausted = true
  | .eWrite => s.enc.state = .write ∧ s.encExhausted = false
  | _ => False

/-- 30_encoding.md R104, the rows of DEC. -/
def decGuard (s : State) : Instr → Prop
  | .dMatch => s.dec.state = .scanning ∧ s.dec.bitcnt = 8#4 ∧
      s.dec.holdv = true ∧ s.dec.hold = markerHi ∧ s.dec.sr = markerLo
  | .dByte => s.dec.state = .scanning ∧ s.dec.bitcnt = 8#4 ∧
      ¬(s.dec.holdv = true ∧ s.dec.hold = markerHi ∧ s.dec.sr = markerLo)
  | .dFinish => s.dec.state = .scanning ∧ s.dec.bitcnt.toNat < 8 ∧ s.decExhausted = true
  | .dRead => s.dec.state = .scanning ∧ s.dec.bitcnt.toNat < 8 ∧ s.decExhausted = false
  | _ => False

/-- ENC's selection is R104's. -/
theorem State.encSelected_eq_ok_iff (s : State) (i : Instr) : s.encSelected = .ok i ↔ encGuard s i := by
  have hcode : s.enc.state = .idle ∨ s.enc.state = .done ∨ s.enc.state = .error →
      s.encSelected = .error .notRunning := by
    rintro (h | h | h) <;> simp [State.encSelected, decode, decodeEnc, State.encSeq, h, EncState.code]
  rcases hst : s.enc.state with _ | _ | _ | _ | _ | _
  case validate =>
    have hs : s.encSelected =
        if s.enc.vidx = s.plen then .ok .eVend
        else if s.enc.vidx.toNat < s.plen.toNat then
          (if 255 < (s.pmemRead s.enc.vidx.toNat).toNat then .ok .eVfail else .ok .eVchk)
        else .error .noRow := by
      simp [State.encSelected, decode, decodeEnc, State.encSeq, hst, EncState.code]
    rw [hs]
    by_cases h1 : s.enc.vidx = s.plen
    · cases i <;> simp [encGuard, hst, h1]
    by_cases h2 : s.enc.vidx.toNat < s.plen.toNat
    · by_cases h3 : 255 < (s.pmemRead s.enc.vidx.toNat).toNat <;> cases i <;>
        simp [encGuard, hst, h1, h2, h3]
      omega
    · cases i <;> simp [encGuard, hst, h1, h2]
  case fetch =>
    have hs : s.encSelected =
        if s.enc.bidx.toNat = s.plen.toNat + 2 then .ok .eComplete
        else if s.enc.bidx.toNat < s.plen.toNat + 2 then .ok .eFetch
        else .error .noRow := by
      simp [State.encSelected, decode, decodeEnc, State.encSeq, hst, EncState.code]
    rw [hs]
    by_cases h1 : s.enc.bidx.toNat = s.plen.toNat + 2
    · cases i <;> simp [encGuard, hst, h1]
    by_cases h2 : s.enc.bidx.toNat < s.plen.toNat + 2 <;> cases i <;> simp [encGuard, hst, h1, h2]
  case write =>
    have hs : s.encSelected = if s.encExhausted then .ok .eTrunc else .ok .eWrite := by
      simp [State.encSelected, decode, decodeEnc, State.encSeq, hst, EncState.code]
    rw [hs]
    by_cases h1 : s.encExhausted = true <;> cases i <;> simp [encGuard, hst, h1]
  all_goals
    rw [hcode (by simp [hst])]
    cases i <;> simp [encGuard, hst]

/-- DEC's selection is R104's. -/
theorem State.decSelected_eq_ok_iff (s : State) (i : Instr) : s.decSelected = .ok i ↔ decGuard s i := by
  have h8 : s.dec.bitcnt.toNat = 8 ↔ s.dec.bitcnt = 8#4 := by
    rw [← BitVec.toNat_inj]; rfl
  rcases hst : s.dec.state with _ | _ | _
  case scanning =>
    have hs : s.decSelected =
        if s.dec.bitcnt.toNat = 8 then
          (if s.dec.holdv = true ∧ s.dec.hold = markerHi ∧ s.dec.sr = markerLo then .ok .dMatch else .ok .dByte)
        else if s.dec.bitcnt.toNat < 8 then (if s.decExhausted then .ok .dFinish else .ok .dRead)
        else .error .noRow := by
      simp [State.decSelected, decode, decodeDec, State.decSeq, hst, DecState.code]
    rw [hs]
    by_cases h1 : s.dec.bitcnt.toNat = 8
    · by_cases h2 : s.dec.holdv = true ∧ s.dec.hold = markerHi ∧ s.dec.sr = markerLo
      · rw [if_pos h1, if_pos h2]
        cases i <;> simp [decGuard, hst, h8.1 h1, h2]
      · rw [if_pos h1, if_neg h2]
        cases i <;> simp only [decGuard, hst, h8.1 h1, h2] <;> simp
    · have h1' : ¬s.dec.bitcnt = 8#4 := fun h => h1 (h8.2 h)
      by_cases h2 : s.dec.bitcnt.toNat < 8
      · by_cases h3 : s.decExhausted = true <;> cases i <;> simp [decGuard, hst, h1, h1', h2, h3]
      · cases i <;> simp [decGuard, hst, h1, h1', h2]
  all_goals
    have hs : s.decSelected = .error .notRunning := by
      simp [State.decSelected, decode, decodeDec, State.decSeq, hst, DecState.code]
    rw [hs]
    cases i <;> simp [decGuard, hst]

/-! ### Starting a unit, dispatch -/

theorem State.startEnc_of_fits {s : State} (hn : s.channels ≤ s.cfg.gmax.val) (hp : s.plen.toNat ≤ s.cfg.pmax.val) :
    s.startEnc = { s with
      enc := { state := .validate, vidx := 0#32, bidx := 0#33, bitcnt := 0#3, sr := 0#8, cur := Cursor.zero }
      trunc := false } := by
  unfold State.startEnc; rw [if_neg (by omega)]

theorem State.startEnc_of_range {s : State} (h : s.cfg.gmax.val < s.channels ∨ s.cfg.pmax.val < s.plen.toNat) :
    s.startEnc = s.raise .configRange 0 1#32 := by
  unfold State.startEnc; rw [if_pos h]

theorem State.startDec_of_fits {s : State} (hn : s.channels ≤ s.cfg.gmax.val) :
    s.startDec = { s with
      dec := { state := .scanning, sr := 0#8, bitcnt := 0#4, hold := 0#8, holdv := false, oidx := 0#32,
               cur := Cursor.zero }
      olen := 0#32
      mfound := false
      taildrop := false } := by
  unfold State.startDec; rw [if_neg (by omega)]

theorem State.startDec_of_range {s : State} (h : s.cfg.gmax.val < s.channels) :
    s.startDec = s.raise .configRange 0 2#32 := by
  unfold State.startDec; rw [if_pos h]

theorem decodeCommand_word (c : Command) : decodeCommand c.word = .ok c := by cases c <;> decide

/-- A word decodes to a command exactly when it is that command's word. -/
theorem decodeCommand_eq_ok_iff (w : Word) (c : Command) : decodeCommand w = .ok c ↔ w = c.word := by
  constructor
  · unfold decodeCommand; split_ifs <;> cases c <;> simp_all [Command.word]
  · rintro rfl; exact decodeCommand_word c

/-- The only way a command word is rejected. -/
theorem decodeCommand_error {w : Word} {e : DecodeError} (h : decodeCommand w = .error e) : e = .reservedCommand := by
  unfold decodeCommand at h; split_ifs at h; exact (Except.error.inj h).symm

/-- Everything a write to CMD can do. -/
theorem State.dispatch_cases (s : State) (v : Word) :
    (s.busy = true ∧ s.dispatch v = s.raise .cmdBusy 0 v) ∨
    (s.busy = false ∧ v = 3#32 ∧ s.dispatch v = s.clearAll) ∨
    (s.busy = false ∧ v ≠ 3#32 ∧ s.cause ≠ 0#4 ∧ s.dispatch v = s) ∨
    (s.busy = false ∧ v = 0#32 ∧ s.cause = 0#4 ∧ s.dispatch v = s) ∨
    (s.busy = false ∧ v = 1#32 ∧ s.cause = 0#4 ∧ s.dispatch v = s.startEnc) ∨
    (s.busy = false ∧ v = 2#32 ∧ s.cause = 0#4 ∧ s.dispatch v = s.startDec) ∨
    (s.busy = false ∧ 3 < v.toNat ∧ s.cause = 0#4 ∧ s.dispatch v = s.raise .cmdReserved 0 v) := by
  unfold State.dispatch
  by_cases hb : s.busy = true
  · simp [hb]
  · have hb' : s.busy = false := by simpa using hb
    rcases hd : decodeCommand v with e | c
    · have hv : 3 < v.toNat := by
        unfold decodeCommand at hd
        split_ifs at hd with h0 h1 h2 h3
        rw [← BitVec.toNat_inj] at h0 h1 h2 h3
        simp at h0 h1 h2 h3
        omega
      have h3 : v ≠ 3#32 := by rintro rfl; revert hv; decide
      by_cases hc : s.cause = 0#4 <;> simp [hb', hc, hv, h3, State.err]
    · obtain rfl := (decodeCommand_eq_ok_iff v c).1 hd
      by_cases hc : s.cause = 0#4 <;> cases c <;> simp [hb', hc, Command.word, State.err]

/-! ### The raster cursor -/

/-- The product the position formulas turn on. -/
theorem Cursor.addr_lt {c : Cursor} {w h : BitVec 16} (hl : c.legal w h) (he : c.exhausted w h = false) :
    c.addr w < 3 * w.toNat * h.toNat := by
  obtain ⟨hr, hc, hk⟩ := hl
  simp only [Cursor.exhausted, decide_eq_false_iff_not, not_or] at he
  have hw : 1 ≤ w.toNat := Nat.one_le_iff_ne_zero.2 fun h0 => he.1 (BitVec.eq_of_toNat_eq (by simpa using h0))
  have hrow : c.row.toNat < h.toNat := lt_of_le_of_ne hr fun h0 => he.2 (BitVec.eq_of_toNat_eq h0)
  have h1 : (c.row.toNat + 1) * w.toNat ≤ h.toNat * w.toNat := Nat.mul_le_mul_right _ hrow
  have hmax : max w.toNat 1 = w.toNat := max_eq_left hw
  unfold Cursor.addr
  rw [hmax] at hc
  nlinarith

/-- `advance` adds exactly 1 to the position and keeps the cursor in its ranges (10_state.md R44). -/
theorem Cursor.advance_pos {c : Cursor} {w h : BitVec 16} (hl : c.legal w h) (he : c.exhausted w h = false) :
    (c.advance w).pos w h = c.pos w h + 1 ∧ (c.advance w).legal w h := by
  have hlt := Cursor.addr_lt hl he
  obtain ⟨hr, hc, hk⟩ := hl
  have hpos : c.pos w h = c.addr w := by simp [Cursor.pos, he]
  rw [hpos]
  simp only [Cursor.exhausted, decide_eq_false_iff_not, not_or] at he
  obtain ⟨hw0, hrh⟩ := he
  have hw : 1 ≤ w.toNat := Nat.one_le_iff_ne_zero.2 fun h0 => hw0 (BitVec.eq_of_toNat_eq (by simpa using h0))
  have hrow : c.row.toNat < h.toNat := lt_of_le_of_ne hr fun h0 => hrh (BitVec.eq_of_toNat_eq h0)
  have hmax : max w.toNat 1 = w.toNat := max_eq_left hw
  rw [hmax] at hc
  have hh : h.toNat < 65536 := h.isLt
  have hww : w.toNat < 65536 := w.isLt
  unfold Cursor.advance
  split_ifs with h1 h2
  · have hk1 : (c.ch + 1#2).toNat = c.ch.toNat + 1 := by
      rw [BitVec.toNat_add, BitVec.toNat_ofNat]; omega
    refine ⟨?_, hr, by simpa [hmax] using hc, by simp only [hk1]; omega⟩
    simp only [Cursor.pos, Cursor.exhausted, hw0, hrh, Cursor.addr, hk1]
    simp; omega
  · have hc1 : (c.col + 1#16).toNat = c.col.toNat + 1 := by
      rw [BitVec.toNat_add, BitVec.toNat_ofNat]; omega
    refine ⟨?_, hr, by simp only [hc1, hmax]; omega, by simp⟩
    simp only [Cursor.pos, Cursor.exhausted, hw0, hrh, Cursor.addr, hc1]
    simp; omega
  · have hr1 : (c.row + 1#16).toNat = c.row.toNat + 1 := by
      rw [BitVec.toNat_add, BitVec.toNat_ofNat]; omega
    have hcol : c.col.toNat = w.toNat - 1 := by omega
    have hch : c.ch.toNat = 2 := by omega
    have hmul : (c.row.toNat + 1) * w.toNat = c.row.toNat * w.toNat + w.toNat := by ring
    refine ⟨?_, by simp only [hr1]; omega, by simp [hmax]; omega, by simp⟩
    by_cases hx : c.row + 1#16 = h
    · have hx' : c.row.toNat + 1 = h.toNat := by rw [← hr1, hx]
      simp only [Cursor.pos, Cursor.exhausted, hw0, hx, Cursor.addr, hcol, hch]
      rw [if_pos (by simp), ← hx']
      have : 3 * w.toNat * (c.row.toNat + 1) = 3 * (c.row.toNat * w.toNat) + 3 * w.toNat := by ring
      omega
    · simp only [Cursor.pos, Cursor.exhausted, hw0, hx, Cursor.addr, hr1, hmul, hcol, hch]
      simp; omega

/-- The position never passes N. -/
theorem Cursor.pos_le {c : Cursor} {w h : BitVec 16} (hl : c.legal w h) : c.pos w h ≤ 3 * w.toNat * h.toNat := by
  unfold Cursor.pos
  split_ifs with he
  · exact le_rfl
  · exact (Cursor.addr_lt hl (by simpa using he)).le

/-- The position is N exactly when the cursor is exhausted (10_state.md R44). -/
theorem Cursor.pos_eq_iff {c : Cursor} {w h : BitVec 16} (hl : c.legal w h) :
    c.pos w h = 3 * w.toNat * h.toNat ↔ c.exhausted w h = true := by
  unfold Cursor.pos
  split_ifs with he
  · simp [he]
  · simpa [he] using (Cursor.addr_lt hl (by simpa using he)).ne

/-- The cursor a START leaves stands at position 0. -/
theorem Cursor.zero_legal (w h : BitVec 16) : Cursor.zero.legal w h ∧ Cursor.zero.pos w h = 0 := by
  refine ⟨by simp [Cursor.legal], ?_⟩
  unfold Cursor.pos
  split_ifs with he
  · simp only [Cursor.exhausted, decide_eq_true_eq] at he
    rcases he with rfl | he
    · simp
    · rw [← he]; simp
  · simp [Cursor.addr]

end Sys2Proof.Machine
end

