-- ==== Sys2Proof/Laws/Step.lean ====
section
/-! SUPPORT. What one step can do: the micro-operations as equations, the turns of the host, and the inversion of
`step`. -/

namespace Sys2Proof.Machine

/-! ### Turns -/

theorem State.takeTurn_nil {s : State} (h : s.inbox = []) : s.takeTurn = s := by simp [State.takeTurn, h]

theorem State.takeTurn_unit {s : State} {rest : List Turn} (h : s.inbox = .unit :: rest) :
    s.takeTurn = { s with inbox := rest } := by simp [State.takeTurn, h]

theorem State.takeTurn_host {s : State} {q : Request} {rest : List Turn} (h : s.inbox = .host q :: rest) :
    s.takeTurn = { s with inbox := rest } := by simp [State.takeTurn, h]

theorem State.takeTurn_reset {s : State} {rest : List Turn} (h : s.inbox = .reset :: rest) :
    s.takeTurn = { s with inbox := rest } := by simp [State.takeTurn, h]

/-- Taking a turn changes the list of turns and nothing else. -/
theorem State.takeTurn_eq (s : State) : ∃ rest, s.takeTurn = { s with inbox := rest } := by
  unfold State.takeTurn
  split
  · exact ⟨s.inbox, rfl⟩
  · exact ⟨_, rfl⟩
  · exact ⟨_, rfl⟩
  · split
    · exact ⟨s.inbox, rfl⟩
    · exact ⟨_, rfl⟩
  · exact ⟨_, rfl⟩

/-- The list of turns has no part in a unit's selection. -/
theorem State.encSelected_inbox (s : State) (l : List Turn) :
    ({ s with inbox := l } : State).encSelected = s.encSelected := rfl

theorem State.decSelected_inbox (s : State) (l : List Turn) :
    ({ s with inbox := l } : State).decSelected = s.decSelected := rfl

/-! ### Which operation a step runs -/

/-- Everything a step that answers a next state can be. -/
theorem step_eq_next {s t : State} (h : step s = .next t) :
    (∃ q rest i, s.inbox = .host q :: rest ∧ decodeRequest q = .ok i ∧ exec i s.takeTurn = .next t) ∨
    (∃ rest, s.inbox = .wait :: rest ∧ s.busy = false ∧ exec (.regRead 1) s.takeTurn = .next t) ∨
    (∃ i, s.enc.state.running = true ∧ s.encSelected = .ok i ∧ exec i s.takeTurn = .next t) ∨
    (∃ i, s.enc.state.running = false ∧ s.dec.state.running = true ∧ s.decSelected = .ok i ∧
      exec i s.takeTurn = .next t) ∨
    (∃ rest, s.inbox = .reset :: rest ∧ t = s.takeTurn.hostReset) ∨
    (s.busy = false ∧ t = s.takeTurn) := by
  have unitCase : ∀ (_ : s.fetch = s.unitFetch),
      (∃ i, s.enc.state.running = true ∧ s.encSelected = .ok i ∧ exec i s.takeTurn = .next t) ∨
      (∃ i, s.enc.state.running = false ∧ s.dec.state.running = true ∧ s.decSelected = .ok i ∧
        exec i s.takeTurn = .next t) ∨ (s.busy = false ∧ t = s.takeTurn) := by
    intro hf
    unfold step at h
    rw [hf] at h
    unfold State.unitFetch at h
    by_cases he : s.enc.state.running = true
    · rw [if_pos he] at h
      cases hd : decode (.encStep s.encSeq) with
      | ok i => simp only [hd] at h; exact .inl ⟨i, he, hd, h⟩
      | error d => simp only [hd] at h; cases h
    · rw [if_neg he] at h
      by_cases hdr : s.dec.state.running = true
      · rw [if_pos hdr] at h
        cases hd : decode (.decStep s.decSeq) with
        | ok i => simp only [hd] at h; exact .inr (.inl ⟨i, by simpa using he, hdr, hd, h⟩)
        | error d => simp only [hd] at h; cases h
      · rw [if_neg hdr] at h
        exact .inr (.inr ⟨by simp [State.busy, he, hdr], (Host.Outcome.next.inj h).symm⟩)
  rcases hi : s.inbox with _ | ⟨_ | q | _ | _, rest⟩
  · rcases unitCase (by simp [State.fetch, hi]) with h | h | h <;> simp [h]
  · rcases unitCase (by simp [State.fetch, hi]) with h | h | h <;> simp [h]
  · left
    have hf : s.fetch = .op (.xact q) := by simp [State.fetch, hi]
    unfold step at h
    rw [hf] at h
    cases hd : decodeRequest q with
    | ok i => exact ⟨q, rest, i, rfl, hd, by simpa [decode, hd] using h⟩
    | error d => simp [decode, hd] at h
  · by_cases hb : s.busy = true
    · rcases unitCase (by simp [State.fetch, hi, hb]) with h | h | h <;> simp [h]
    · right; left
      have hf : s.fetch = .op (.xact Request.readStatus) := by simp [State.fetch, hi, hb]
      unfold step at h
      rw [hf] at h
      exact ⟨rest, rfl, by simpa using hb, h⟩
  · right; right; right; right; left
    have hf : s.fetch = .reset := by simp [State.fetch, hi]
    unfold step at h
    rw [hf] at h
    exact ⟨rest, rfl, (Host.Outcome.next.inj h).symm⟩

/-- A running ENC steps by its selected micro-operation when no turn of the host comes first. -/
theorem step_enc {s : State} {i : Instr} (hi : s.inbox = []) (hr : s.enc.state.running = true)
    (hs : s.encSelected = .ok i) : step s = exec i s := by
  have hf : s.fetch = .op (.encStep s.encSeq) := by simp [State.fetch, State.unitFetch, hi, hr]
  have hd : decode (.encStep s.encSeq) = .ok i := hs
  simp [step, hf, hd, State.takeTurn_nil hi]

/-- A running DEC steps by its selected micro-operation when no turn of the host comes first. -/
theorem step_dec {s : State} {i : Instr} (hi : s.inbox = []) (he : s.enc.state.running = false)
    (hr : s.dec.state.running = true) (hs : s.decSelected = .ok i) : step s = exec i s := by
  have hf : s.fetch = .op (.decStep s.decSeq) := by simp [State.fetch, State.unitFetch, hi, he, hr]
  have hd : decode (.decStep s.decSeq) = .ok i := hs
  simp [step, hf, hd, State.takeTurn_nil hi]

/-- At rest with nothing to come, nothing happens. -/
theorem step_idle {s : State} (hi : s.inbox = []) (hb : s.busy = false) : step s = .next s := by
  obtain ⟨he, hd⟩ := (State.busy_eq_false_iff s).1 hb
  have hf : s.fetch = .idle := by simp [State.fetch, State.unitFetch, hi, he, hd]
  simp [step, hf, State.takeTurn_nil hi]

/-! ### Runs -/

theorem runSteps_succ_of_next {s t : State} (h : step s = .next t) (k : Nat) : runSteps (k + 1) s = runSteps k t := by
  simp [runSteps, h]

/-- At rest with nothing to come, a run of any length ends where it began. -/
theorem runSteps_idle {s : State} (hi : s.inbox = []) (hb : s.busy = false) (k : Nat) : runSteps k s = .next s := by
  induction k with
  | zero => rfl
  | succ k ih => rw [runSteps_succ_of_next (step_idle hi hb), ih]

end Sys2Proof.Machine
end

