-- ==== Sys2Proof/Laws/Exec.lean ====
section
/-! SUPPORT. What each operation can do, said once: one equation per micro-operation, and one inversion for the host's
transactions and commands. -/

namespace Sys2Proof.Machine

/-! ### Micro-operations of ENC -/

theorem exec_eVchk_iff (s t : State) : exec .eVchk s = .next t ↔
    encGuard s .eVchk ∧ t = { s with enc := { s.enc with vidx := s.enc.vidx + 1#32 } } := by
  rw [← State.encSelected_eq_ok_iff]; change execEVchk s = _ ↔ _; exact encStep_eq_next_iff _ _ _ _

theorem exec_eVfail_iff (s t : State) : exec .eVfail s = .next t ↔
    encGuard s .eVfail ∧ t = { s.raise .payloadEncoding s.enc.vidx.toNat (s.pmemRead s.enc.vidx.toNat) with
      enc := { s.enc with state := .error } } := by
  rw [← State.encSelected_eq_ok_iff]; change execEVfail s = _ ↔ _; exact encStep_eq_next_iff _ _ _ _

theorem exec_eVend_iff (s t : State) : exec .eVend s = .next t ↔
    encGuard s .eVend ∧ t = { s with enc := { s.enc with state := .fetch } } := by
  rw [← State.encSelected_eq_ok_iff]; change execEVend s = _ ↔ _; exact encStep_eq_next_iff _ _ _ _

theorem exec_eFetch_iff (s t : State) : exec .eFetch s = .next t ↔
    encGuard s .eFetch ∧
      t = { s with enc := { s.enc with sr := s.frameByte s.enc.bidx.toNat, state := .write } } := by
  rw [← State.encSelected_eq_ok_iff]; change execEFetch s = _ ↔ _; exact encStep_eq_next_iff _ _ _ _

theorem exec_eComplete_iff (s t : State) : exec .eComplete s = .next t ↔
    encGuard s .eComplete ∧ t = { s with enc := { s.enc with state := .done } } := by
  rw [← State.encSelected_eq_ok_iff]; change execEComplete s = _ ↔ _; exact encStep_eq_next_iff _ _ _ _

theorem exec_eTrunc_iff (s t : State) : exec .eTrunc s = .next t ↔
    encGuard s .eTrunc ∧ t = { s with enc := { s.enc with state := .done }, trunc := true } := by
  rw [← State.encSelected_eq_ok_iff]; change execETrunc s = _ ↔ _; exact encStep_eq_next_iff _ _ _ _

theorem exec_eWrite_iff (s t : State) : exec .eWrite s = .next t ↔
    encGuard s .eWrite ∧
      t = { s.gmemWrite (s.enc.cur.addr s.width)
              (Ref.setLsb (s.gmemRead (s.enc.cur.addr s.width)) (s.enc.sr.getLsbD 7)) with
            enc := s.enc.afterWrite s.width } := by
  rw [← State.encSelected_eq_ok_iff]; change execEWrite s = _ ↔ _; exact encStep_eq_next_iff _ _ _ _

/-! ### Micro-operations of DEC -/

theorem exec_dRead_iff (s t : State) : exec .dRead s = .next t ↔
    decGuard s .dRead ∧
      t = { s with
        dec :=
          { s.dec with
            sr := (s.dec.sr <<< 1) ||| (BitVec.ofBool ((s.gmemRead (s.dec.cur.addr s.width)).getLsbD 0)).setWidth 8
            bitcnt := s.dec.bitcnt + 1#4
            cur := s.dec.cur.advance s.width } } := by
  rw [← State.decSelected_eq_ok_iff]; change execDRead s = _ ↔ _; exact decStep_eq_next_iff _ _ _ _

theorem exec_dMatch_iff (s t : State) : exec .dMatch s = .next t ↔
    decGuard s .dMatch ∧ t = { s with mfound := true, olen := s.dec.oidx, dec := { s.dec with state := .done } } := by
  rw [← State.decSelected_eq_ok_iff]; change execDMatch s = _ ↔ _; exact decStep_eq_next_iff _ _ _ _

/-- D_BYTE with no byte held. -/
theorem exec_dByte_iff_of_empty {s : State} (hh : s.dec.holdv = false) (t : State) : exec .dByte s = .next t ↔
    decGuard s .dByte ∧ t = { s with dec := { s.dec with hold := s.dec.sr, holdv := true, bitcnt := 0#4 } } := by
  rw [← State.decSelected_eq_ok_iff]
  change execDByte s = _ ↔ _
  exact (decStep_eq_next_iff _ _ _ _).trans (by simp only [hh]; rfl)

/-- D_BYTE with a byte held. -/
theorem exec_dByte_iff_of_held {s : State} (hh : s.dec.holdv = true) (t : State) : exec .dByte s = .next t ↔
    decGuard s .dByte ∧ t = { s.omemWrite s.dec.oidx.toNat s.dec.hold with
      dec := { s.dec with oidx := s.dec.oidx + 1#32, hold := s.dec.sr, holdv := true, bitcnt := 0#4 } } := by
  rw [← State.decSelected_eq_ok_iff]
  change execDByte s = _ ↔ _
  exact (decStep_eq_next_iff _ _ _ _).trans (by simp only [hh]; rfl)

/-- D_FINISH with no byte held. -/
theorem exec_dFinish_iff_of_empty {s : State} (hh : s.dec.holdv = false) (t : State) : exec .dFinish s = .next t ↔
    decGuard s .dFinish ∧ t = { s with olen := s.dec.oidx, dec := { s.dec with state := .done } } := by
  rw [← State.decSelected_eq_ok_iff]
  change execDFinish s = _ ↔ _
  exact (decStep_eq_next_iff _ _ _ _).trans (by simp [hh])

/-- D_FINISH with a tail byte 0xFF held. -/
theorem exec_dFinish_iff_of_dropped {s : State} (hh : s.dec.holdv = true) (h : s.dec.hold = markerHi) (t : State) :
    exec .dFinish s = .next t ↔
      decGuard s .dFinish ∧ t = { s with olen := s.dec.oidx, taildrop := true, dec := { s.dec with state := .done } } := by
  rw [← State.decSelected_eq_ok_iff]
  change execDFinish s = _ ↔ _
  exact (decStep_eq_next_iff _ _ _ _).trans (by simp [hh, h])

/-- D_FINISH with another tail byte held. -/
theorem exec_dFinish_iff_of_delivered {s : State} (hh : s.dec.holdv = true) (h : s.dec.hold ≠ markerHi) (t : State) :
    exec .dFinish s = .next t ↔
      decGuard s .dFinish ∧ t = { s.omemWrite s.dec.oidx.toNat s.dec.hold with
        olen := s.dec.oidx + 1#32
        dec := { s.dec with oidx := s.dec.oidx + 1#32, state := .done } } := by
  rw [← State.decSelected_eq_ok_iff]
  change execDFinish s = _ ↔ _
  exact (decStep_eq_next_iff _ _ _ _).trans (by simp [hh, h, State.deliver, State.omemWrite])

/-! ### The host -/

/-- Recording a fault changes the three fault registers at most. -/
theorem State.raise_eq (s : State) (c : Cause) (a : Nat) (d : Word) :
    ∃ c' f' d', s.raise c a d = { s with cause := c', faddr := f', fdata := d' } := by
  by_cases h : s.cause = 0#4
  · exact ⟨_, _, _, State.raise_of_clear h c a d⟩
  · exact ⟨_, _, _, State.raise_of_latched h c a d⟩

/-- The host is answered, and a fault is recorded if need be: the whole effect of a read and of a refused access. -/
def State.Noted (s t : State) : Prop :=
  ∃ r, (r = s ∨ ∃ c a d, r = s.raise c a d) ∧ ∃ o n, t = { r with outbox := o, freeIx := n }

theorem State.noted_raise (s : State) (c : Cause) (a : Nat) (d : Word) : s.Noted (s.raise c a d) :=
  ⟨_, .inr ⟨c, a, d, rfl⟩, (s.raise c a d).outbox, (s.raise c a d).freeIx, rfl⟩

theorem State.noted_refuseWord (s : State) (c : Cause) (a : Nat) (sp : Space) : s.Noted (s.refuseWord c a sp) :=
  ⟨_, .inr ⟨c, a, sp.code, rfl⟩, _, _, rfl⟩

theorem State.noted_refuseByte (s : State) (c : Cause) (a : Nat) (sp : Space) : s.Noted (s.refuseByte c a sp) :=
  ⟨_, .inr ⟨c, a, sp.code, rfl⟩, _, _, rfl⟩

theorem State.noted_replyWord (s : State) (v : Word) : s.Noted (s.replyWord v) := ⟨s, .inl rfl, _, s.freeIx, rfl⟩

theorem State.noted_replyByte (s : State) (v : Byte) : s.Noted (s.replyByte v) := ⟨s, .inl rfl, _, s.freeIx, rfl⟩

/-- What noting can change. -/
theorem State.Noted.eq {s t : State} (h : s.Noted t) :
    ∃ c f d o n, t = { s with cause := c, faddr := f, fdata := d, outbox := o, freeIx := n } := by
  obtain ⟨r, hr, o, n, rfl⟩ := h
  rcases hr with rfl | ⟨c, a, d, rfl⟩
  · exact ⟨r.cause, r.faddr, r.fdata, o, n, rfl⟩
  · obtain ⟨c', f', d', h'⟩ := s.raise_eq c a d
    exact ⟨c', f', d', o, n, by rw [h']⟩

/-- Noting touches no unit, register of the operation, flag, memory or turn. -/
theorem State.Noted.frame {s t : State} (h : s.Noted t) :
    t.enc = s.enc ∧ t.dec = s.dec ∧ s.SameConfig t ∧ s.SameResults t ∧ s.SameMemories t ∧ t.inbox = s.inbox := by
  obtain ⟨_, _, _, _, _, rfl⟩ := h.eq
  exact ⟨rfl, rfl, ⟨rfl, rfl, rfl, rfl⟩, ⟨rfl, rfl, rfl, rfl⟩, State.sameMemories_of_eq rfl rfl rfl rfl, rfl⟩

/-- With a fault latched, noting keeps it. -/
theorem State.Noted.sameFault {s t : State} (h : s.Noted t) (hc : s.cause ≠ 0#4) : s.SameFault t := by
  obtain ⟨r, hr, o, n, rfl⟩ := h
  rcases hr with rfl | ⟨c, a, d, rfl⟩
  · exact ⟨rfl, rfl, rfl⟩
  · rw [State.raise_of_latched hc]; exact ⟨rfl, rfl, rfl⟩

/-- Everything a transaction or command of the host can do. -/
theorem exec_host_cases {i : Instr} {s t : State} (hi : hostOp i = true) (h : exec i s = .next t) :
    (∃ v, t = s.dispatch v ∧
      (i = .regWrite 0 v ∨ i = .nop ∧ v = 0#32 ∨ i = .encStart ∧ v = 1#32 ∨ i = .decStart ∧ v = 2#32 ∨
        i = .clear ∧ v = 3#32)) ∨
    s.Noted t ∨
    (s.busy = false ∧
      ((∃ v, i = .regWrite 2 v ∧ t = { s with width := v.setWidth 16 }) ∨
       (∃ v, i = .regWrite 3 v ∧ t = { s with height := v.setWidth 16 }) ∨
       (∃ v, i = .regWrite 4 v ∧ t = { s with plen := v }) ∨
       (∃ r v, i = .regWrite r v ∧ t = s) ∨
       (∃ a v, i = .gWrite a v ∧ a < s.cfg.gmax.val ∧ t = s.gmemWrite a v) ∨
       (∃ a v, i = .pWrite a v ∧ a < s.cfg.pmax.val ∧ t = s.pmemWrite a v))) := by
  cases i
  case nop => exact .inl ⟨_, (Host.Outcome.next.inj h).symm, .inr (.inl ⟨rfl, rfl⟩)⟩
  case encStart => exact .inl ⟨_, (Host.Outcome.next.inj h).symm, .inr (.inr (.inl ⟨rfl, rfl⟩))⟩
  case decStart => exact .inl ⟨_, (Host.Outcome.next.inj h).symm, .inr (.inr (.inr (.inl ⟨rfl, rfl⟩)))⟩
  case clear => exact .inl ⟨_, (Host.Outcome.next.inj h).symm, .inr (.inr (.inr (.inr ⟨rfl, rfl⟩)))⟩
  case regRead r =>
    right; left
    obtain rfl := Host.Outcome.next.inj h
    split_ifs with hc
    · exact s.noted_refuseWord _ _ _
    · split
      · exact s.noted_replyWord _
      · exact s.noted_refuseWord _ _ _
  case gRead a =>
    right; left
    obtain rfl := Host.Outcome.next.inj h
    split
    · exact s.noted_refuseByte _ _ _
    · exact s.noted_replyByte _
  case pRead a =>
    right; left
    obtain rfl := Host.Outcome.next.inj h
    split
    · exact s.noted_refuseWord _ _ _
    · exact s.noted_replyWord _
  case oRead a =>
    right; left
    obtain rfl := Host.Outcome.next.inj h
    split
    · exact s.noted_refuseByte _ _ _
    · exact s.noted_replyByte _
  case gWrite a v =>
    obtain rfl := Host.Outcome.next.inj h
    rcases hf : s.accessFault a s.cfg.gmax.val with _ | c
    · obtain ⟨hb, ha⟩ := (State.accessFault_eq_none_iff _ _ _).1 hf
      exact .inr (.inr ⟨hb, .inr (.inr (.inr (.inr (.inl ⟨a, v, rfl, ha, rfl⟩))))⟩)
    · exact .inr (.inl (s.noted_raise _ _ _))
  case pWrite a v =>
    obtain rfl := Host.Outcome.next.inj h
    rcases hf : s.accessFault a s.cfg.pmax.val with _ | c
    · obtain ⟨hb, ha⟩ := (State.accessFault_eq_none_iff _ _ _).1 hf
      exact .inr (.inr ⟨hb, .inr (.inr (.inr (.inr (.inr ⟨a, v, rfl, ha, rfl⟩))))⟩)
    · exact .inr (.inl (s.noted_raise _ _ _))
  case regWrite r v =>
    obtain rfl := Host.Outcome.next.inj h
    split_ifs with h0 hb h9 h2 h3 h4
    · subst h0; exact .inl ⟨v, rfl, .inl rfl⟩
    · exact .inr (.inl (s.noted_raise _ _ _))
    · exact .inr (.inl (s.noted_raise _ _ _))
    all_goals
      have hb' : s.busy = false := by simpa using hb
    · subst h2; exact .inr (.inr ⟨hb', .inl ⟨v, rfl, rfl⟩⟩)
    · subst h3; exact .inr (.inr ⟨hb', .inr (.inl ⟨v, rfl, rfl⟩)⟩)
    · subst h4; exact .inr (.inr ⟨hb', .inr (.inr (.inl ⟨v, rfl, rfl⟩))⟩)
    · exact .inr (.inr ⟨hb', .inr (.inr (.inr (.inl ⟨r, v, rfl, rfl⟩)))⟩)
  all_goals simp [hostOp, Instr.format] at hi

/-- A transaction or command of the host always completes. -/
theorem exec_host_completes {i : Instr} (hi : hostOp i = true) (s : State) : ∃ t, exec i s = .next t := by
  cases i <;> first | exact ⟨_, rfl⟩ | simp [hostOp, Instr.format] at hi

/-- While BUSY the host brings about nothing but an answer and a recorded fault. -/
theorem exec_host_noted_of_busy {i : Instr} {s t : State} (hb : s.busy = true) (hi : hostOp i = true)
    (h : exec i s = .next t) : s.Noted t := by
  rcases exec_host_cases hi h with ⟨v, rfl, -⟩ | h | ⟨hb', -⟩
  · rcases s.dispatch_cases v with ⟨-, h⟩ | h | h | h | h | h | h
    · rw [h]; exact s.noted_raise _ _ _
    all_goals exact absurd (h.1.symm.trans hb) (by simp)
  · exact h
  · exact absurd (hb'.symm.trans hb) (by simp)

end Sys2Proof.Machine
end

