-- ==== Sys2Proof/Laws/PerInstr.lean ====
section
/-! SUPPORT. Statements made of every operation, one lemma per constructor. -/

namespace Sys2Proof.Laws

namespace EncodeFormat

/-- The encoded form of an operation is of the format spec/opcode_table.json gives its row. -/
def Statement (i : Instr) : Prop := (encode i).format = i.format

theorem nop : Statement .nop := rfl
theorem encStart : Statement .encStart := rfl
theorem decStart : Statement .decStart := rfl
theorem clear : Statement .clear := rfl
theorem regRead (r : Nat) : Statement (.regRead r) := rfl
theorem regWrite (r : Nat) (v : Word) : Statement (.regWrite r v) := rfl
theorem gRead (a : Nat) : Statement (.gRead a) := rfl
theorem gWrite (a : Nat) (v : Byte) : Statement (.gWrite a v) := rfl
theorem pRead (a : Nat) : Statement (.pRead a) := rfl
theorem pWrite (a : Nat) (v : Word) : Statement (.pWrite a v) := rfl
theorem oRead (a : Nat) : Statement (.oRead a) := rfl
theorem eVchk : Statement .eVchk := rfl
theorem eVfail : Statement .eVfail := rfl
theorem eVend : Statement .eVend := rfl
theorem eFetch : Statement .eFetch := rfl
theorem eComplete : Statement .eComplete := rfl
theorem eTrunc : Statement .eTrunc := rfl
theorem eWrite : Statement .eWrite := rfl
theorem dRead : Statement .dRead := rfl
theorem dMatch : Statement .dMatch := rfl
theorem dByte : Statement .dByte := rfl
theorem dFinish : Statement .dFinish := rfl

end EncodeFormat
end Sys2Proof.Laws
end

