-- ==== Sys2Proof/Tests/Slice0.lean ====
section
/-! SUPPORT. Tests: the checks on requests refuse; decoding of words, requests and sequencing states written out from
30_encoding.md; one step of each operation against 95_test_vectors.md (the row is named); and for every obligation with
hypotheses a witness that meets them. -/

namespace Sys2Proof.Tests

open Sys2Proof Sys2Proof.Machine

/-- The outcome is a next state with this property. -/
def after (o : Host.Outcome State Fault Refusal) (p : State → Bool) : Bool :=
  match o with
  | .next t => p t
  | .fault _ => false
  | .refused _ => false

/-- The outcome is this refusal. -/
def refusedAs (o : Host.Outcome State Fault Refusal) (r : Refusal) : Bool :=
  match o with
  | .next _ => false
  | .fault _ => false
  | .refused q => decide (q = r)

/-- A block with the sizes of 95_test_vectors.md 2.5 and the grid of 2.2: GMAX 64, PMAX 8, WIDTH 4, HEIGHT 3. -/
def block : State := { State.resetOf { gmax := 64, pmax := 8 } with width := 4#16, height := 3#16 }

/-- The block with ENC in this state, its datapath being zero. -/
def encIn (e : EncState) : State := { block with enc := { EncUnit.reset with state := e } }

/-- ENC in FETCH or WRITE with these of its datapath. -/
def encAt (e : EncState) (bidx : BitVec 33) (bitcnt : BitVec 3) (sr : Byte) (cur : Cursor) : State :=
  { block with enc := { state := e, vidx := 2#32, bidx := bidx, bitcnt := bitcnt, sr := sr, cur := cur }, plen := 2#32 }

/-- DEC in SCANNING with this datapath, as 95_test_vectors.md 2.3 writes it. -/
def decAt (sr : Byte) (bitcnt : BitVec 4) (hold : Byte) (holdv : Bool) (oidx : Word) (cur : Cursor) : State :=
  { block with
    dec := { state := .scanning, sr := sr, bitcnt := bitcnt, hold := hold, holdv := holdv, oidx := oidx, cur := cur } }

/-- The exhausted cursor of the 4 by 3 grid. -/
def cursorEnd : Cursor := { row := 3#16, col := 0#16, ch := 0#2 }

/-- A fault is latched (V-K21). -/
def latched : State := { block with cause := 3#4, fdata := 7#32 }

/-! ### Ill-formed requests are refused -/

theorem test_omem_write_is_ill_formed :
    ({ space := 3#2, write := true, addr := 0, data := 0#32 } : Request).wellFormed = false := by decide
/-- V-K25: GWrite(0, 0x1FF) is not expressible. -/
theorem test_wide_gmem_element_is_ill_formed :
    ({ space := 1#2, write := true, addr := 0, data := 0x1FF#32 } : Request).wellFormed = false := by decide
theorem test_read_with_element_is_ill_formed :
    ({ space := 2#2, write := false, addr := 0, data := 1#32 } : Request).wellFormed = false := by decide
theorem test_step_refuses_ill_formed :
    refusedAs (step (block.withRequest { space := 3#2, write := true, addr := 0, data := 0#32 }))
      (.undecodable .omemWrite) = true := by decide

/-! ### Decoding: words from 30_encoding.md R100, space codes from R105, state codes and guards from R104 -/

theorem test_decode_commands :
    decode (.cmd 0x00000000#32) = .ok .nop ∧ decode (.cmd 0x00000001#32) = .ok .encStart ∧
    decode (.cmd 0x00000002#32) = .ok .decStart ∧ decode (.cmd 0x00000003#32) = .ok .clear ∧
    decode (.cmd 0x00000004#32) = .error .reservedCommand ∧
    decode (.cmd 0x00000101#32) = .error .reservedCommand ∧
    decode (.cmd 0xFFFFFFFF#32) = .error .reservedCommand := by decide

theorem test_decode_register_requests :
    decode (.xact { space := 0#2, write := false, addr := 8, data := 0#32 }) = .ok (.regRead 8) ∧
    decode (.xact { space := 0#2, write := true, addr := 2, data := 0x0001000B#32 }) =
      .ok (.regWrite 2 0x0001000B#32) := by decide

theorem test_decode_memory_requests :
    decode (.xact { space := 1#2, write := false, addr := 63, data := 0#32 }) = .ok (.gRead 63) ∧
    decode (.xact { space := 1#2, write := true, addr := 63, data := 0xFF#32 }) = .ok (.gWrite 63 0xFF#8) ∧
    decode (.xact { space := 2#2, write := false, addr := 7, data := 0#32 }) = .ok (.pRead 7) ∧
    decode (.xact { space := 2#2, write := true, addr := 7, data := 0x12345678#32 }) =
      .ok (.pWrite 7 0x12345678#32) ∧
    decode (.xact { space := 3#2, write := false, addr := 7, data := 0#32 }) = .ok (.oRead 7) := by decide

/-- State code 1 (VALIDATE) and each guard at its boundary: `PMEM[VIDX]` is 255, then 256; then `VIDX = PLEN`. -/
theorem test_decode_validate :
    decode (.encStep { code := 0b001#3, vidx := 7#32, plen := 8#32, unit := 255#32, bidx := 0#33, exhausted := false })
      = .ok .eVchk ∧
    decode (.encStep { code := 0b001#3, vidx := 7#32, plen := 8#32, unit := 256#32, bidx := 0#33, exhausted := false })
      = .ok .eVfail ∧
    decode (.encStep { code := 0b001#3, vidx := 8#32, plen := 8#32, unit := 256#32, bidx := 0#33, exhausted := false })
      = .ok .eVend := by decide

/-- State codes 2 (FETCH) and 3 (WRITE). -/
theorem test_decode_embedding :
    decode (.encStep { code := 0b010#3, vidx := 8#32, plen := 8#32, unit := 0#32, bidx := 9#33, exhausted := true })
      = .ok .eFetch ∧
    decode (.encStep { code := 0b010#3, vidx := 8#32, plen := 8#32, unit := 0#32, bidx := 10#33, exhausted := true })
      = .ok .eComplete ∧
    decode (.encStep { code := 0b011#3, vidx := 8#32, plen := 8#32, unit := 0#32, bidx := 9#33, exhausted := true })
      = .ok .eTrunc ∧
    decode (.encStep { code := 0b011#3, vidx := 8#32, plen := 8#32, unit := 0#32, bidx := 9#33, exhausted := false })
      = .ok .eWrite := by decide

/-- State code 1 (SCANNING). With `BITCNT = 8` an exhausted cursor does not select D_FINISH. -/
theorem test_decode_scanning :
    decode (.decStep { code := 0b01#2, bitcnt := 7#4, holdv := true, hold := 0xFF#8, sr := 0xFE#8, exhausted := false })
      = .ok .dRead ∧
    decode (.decStep { code := 0b01#2, bitcnt := 8#4, holdv := true, hold := 0xFF#8, sr := 0xFE#8, exhausted := true })
      = .ok .dMatch ∧
    decode (.decStep { code := 0b01#2, bitcnt := 8#4, holdv := false, hold := 0xFF#8, sr := 0xFE#8, exhausted := true })
      = .ok .dByte ∧
    decode (.decStep { code := 0b01#2, bitcnt := 7#4, holdv := true, hold := 0xFF#8, sr := 0xFE#8, exhausted := true })
      = .ok .dFinish := by decide

/-- A unit that is not running has no step (R104): state codes 0, 4, 5 of ENC and 0, 2 of DEC. -/
theorem test_decode_not_running :
    decode (.encStep { code := 0#3, vidx := 0#32, plen := 0#32, unit := 0#32, bidx := 0#33, exhausted := false })
      = .error .notRunning ∧
    decode (.encStep { code := 4#3, vidx := 0#32, plen := 0#32, unit := 0#32, bidx := 0#33, exhausted := false })
      = .error .notRunning ∧
    decode (.decStep { code := 2#2, bitcnt := 8#4, holdv := false, hold := 0#8, sr := 0#8, exhausted := false })
      = .error .notRunning := by decide

/-! ### The host's words -/

theorem test_table_words :
    decodeTableWord 32 1 = some .encStart ∧ decodeTableWord 32 4 = none ∧ decodeTableWord 0 0 = some (.regRead 0) ∧
    decodeTableWord 8 1 = some .eVend ∧ decodeTableWord 8 2 = some .eFetch ∧ decodeTableWord 8 3 = some .eTrunc ∧
    decodeTableWord 2 1 = some .dFinish := by decide

theorem test_placed_command_runs :
    after (step (State.reset.withFetchWord 32 1)) (fun t => t.enc.state == .validate) = true ∧
    after (step (State.reset.withFetchWord 32 4)) (fun t => t.cause == 3#4 && t.fdata == 4#32) = true := by decide

theorem test_placed_micro_op_runs :
    after (step (State.reset.withFetchWord 8 1)) (fun t => t.enc.state == .fetch) = true ∧
    after (step (State.reset.withFetchWord 8 3)) (fun t => t.enc.state == .done && t.trunc) = true ∧
    after (step (State.reset.withFetchWord 2 1)) (fun t => t.dec.state == .done) = true := by decide

/-! ### Commands and transactions (95_test_vectors.md 2.5) -/

/-- V-K2 -/
theorem test_nop : exec .nop block = .next block := by rfl
/-- V-K9: N = 75 > 64. -/
theorem test_enc_start_out_of_range :
    after (exec .encStart { block with width := 5#16, height := 5#16 })
      (fun t => t.cause == 4#4 && t.faddr == 0#32 && t.fdata == 1#32 && t.status == 0x00000200#32) = true := by decide
/-- V-K11: N = 60 fits, PLEN = 9 > 8. -/
theorem test_enc_start_payload_out_of_range :
    after (exec .encStart { block with height := 5#16, plen := 9#32 })
      (fun t => t.cause == 4#4 && t.fdata == 1#32) = true := by decide
/-- V-K10 -/
theorem test_dec_start_out_of_range :
    after (exec .decStart { block with width := 5#16, height := 5#16 })
      (fun t => t.cause == 4#4 && t.fdata == 2#32 && t.dec.state == .idle) = true := by decide
/-- V-K12: PLEN is not DEC's operand. -/
theorem test_dec_start_ignores_plen :
    after (exec .decStart { block with height := 5#16, plen := 9#32 }) (fun t => t.status == 0x00000011#32) = true := by
  decide
/-- V-K23 -/
theorem test_clear : after (exec .clear latched) (fun t => t.cause == 0#4 && t.fdata == 0#32 && t.status == 0#32) = true := by
  decide
/-- V-K1 -/
theorem test_reg_read_status :
    after (exec (.regRead 1) block) (fun t => t.outbox == [.word 0#32]) = true := by decide
/-- V-K18 -/
theorem test_reg_read_out_of_range :
    after (exec (.regRead 9) block) (fun t => t.cause == 6#4 && t.faddr == 9#32 && t.fdata == 0#32) = true := by decide
/-- V-K3 -/
theorem test_reg_write_width :
    after (exec (.regWrite 2 0x0001000B#32) block) (fun t => t.width == 11#16 && t.cause == 0#4) = true := by decide
/-- V-K7 -/
theorem test_reg_write_reserved_command :
    after (exec (.regWrite 0 0x00000101#32) block)
      (fun t => t.cause == 3#4 && t.faddr == 0#32 && t.fdata == 0x101#32 && t.enc.state == .idle) = true := by decide
/-- V-K20 -/
theorem test_g_read_far :
    after (exec (.gRead (2 ^ 32 + 5)) block) (fun t => t.cause == 6#4 && t.faddr == 5#32 && t.fdata == 1#32) = true := by
  decide
/-- V-K13 -/
theorem test_g_write_out_of_range :
    after (exec (.gWrite 64 1#8) block)
      (fun t => t.cause == 6#4 && t.faddr == 0x40#32 && t.fdata == 1#32 && t.gmem == []) = true := by decide
/-- V-K14 -/
theorem test_g_write_last :
    after (exec (.gWrite 63 1#8) block) (fun t => t.cause == 0#4 && t.gmemRead 63 == 1#8) = true := by decide
/-- V-K15 -/
theorem test_p_read_out_of_range :
    after (exec (.pRead 8) block) (fun t => t.cause == 6#4 && t.faddr == 8#32 && t.fdata == 2#32) = true := by decide
/-- V-K24 -/
theorem test_p_write_keeps_all_bits :
    after (exec (.pWrite 0 0x12345678#32) block)
      (fun t => after (exec (.pRead 0) t) fun u => u.outbox == [.word 0x12345678#32]) = true := by decide
/-- V-K16 -/
theorem test_o_read_out_of_range :
    after (exec (.oRead 8) block) (fun t => t.cause == 6#4 && t.faddr == 8#32 && t.fdata == 3#32) = true := by decide
/-- V-K17 -/
theorem test_o_read_last : after (exec (.oRead 7) block) (fun t => t.cause == 0#4) = true := by decide
/-- The priority note after V-K25: BUSY before range, CMD_BUSY before CMD_RESERVED. -/
theorem test_busy_first :
    after (exec (.gRead 64) (encIn .fetch)) (fun t => t.cause == 5#4 && t.faddr == 0x40#32 && t.fdata == 1#32) = true ∧
    after (exec (.regWrite 0 4#32) (encIn .fetch)) (fun t => t.cause == 2#4 && t.fdata == 4#32) = true := by decide

/-! ### ENC micro-operations (95_test_vectors.md 2.2) -/

/-- Row 1. -/
theorem test_e_vchk :
    after (exec .eVchk { encIn .validate with plen := 2#32, pmem := [(0, 0xFF#32)] })
      (fun t => t.enc.state == .validate && t.enc.vidx == 1#32 && t.cause == 0#4) = true := by decide
/-- Row 3. -/
theorem test_e_vfail :
    after (exec .eVfail { encIn .validate with plen := 1#32, pmem := [(0, 0x100#32)] })
      (fun t => t.enc.state == .error && t.enc.vidx == 0#32 && t.cause == 1#4 && t.faddr == 0#32 && t.fdata == 0x100#32)
      = true := by decide
/-- Row 4. -/
theorem test_e_vfail_last :
    after (exec .eVfail { block with
        enc := { EncUnit.reset with state := .validate, vidx := 3#32 }, plen := 4#32, pmem := [(3, 0xFFFFFFFF#32)] })
      (fun t => t.enc.state == .error && t.cause == 1#4 && t.faddr == 3#32 && t.fdata == 0xFFFFFFFF#32) = true := by
  decide
/-- Row 5. -/
theorem test_e_vend : after (exec .eVend (encIn .validate)) (fun t => t.enc.state == .fetch) = true := by decide
/-- Row 6. -/
theorem test_e_fetch_payload :
    after (exec .eFetch { encAt .fetch 0#33 0#3 0#8 Cursor.zero with pmem := [(0, 0x48#32)] })
      (fun t => t.enc.state == .write && t.enc.sr == 0x48#8 && t.enc.bidx == 0#33) = true := by decide
/-- Rows 7 and 8. -/
theorem test_e_fetch_marker :
    after (exec .eFetch (encAt .fetch 2#33 0#3 0#8 Cursor.zero)) (fun t => t.enc.sr == 0xFF#8) = true ∧
    after (exec .eFetch (encAt .fetch 3#33 0#3 0#8 Cursor.zero)) (fun t => t.enc.sr == 0xFE#8) = true := by decide
/-- Row 9. -/
theorem test_e_complete :
    after (exec .eComplete (encAt .fetch 4#33 0#3 0#8 Cursor.zero)) (fun t => t.enc.state == .done && !t.trunc) = true := by
  decide
/-- Row 10. -/
theorem test_e_write :
    after (exec .eWrite { encAt .write 0#33 0#3 0x48#8 Cursor.zero with gmem := [(0, 0x37#8)] })
      (fun t => t.gmem == [(0, 0x36#8)] &&
        t.enc == { state := .write, vidx := 2#32, bidx := 0#33, bitcnt := 1#3, sr := 0x90#8,
                   cur := { row := 0#16, col := 0#16, ch := 1#2 } }) = true := by decide
/-- Row 11: the last bit of a byte, at a row's end. -/
theorem test_e_write_row_end :
    after (exec .eWrite { encAt .write 1#33 7#3 0x80#8 { row := 0#16, col := 3#16, ch := 2#2 } with
        gmem := [(11, 0x10#8)] })
      (fun t => t.gmem == [(11, 0x11#8)] &&
        t.enc == { state := .fetch, vidx := 2#32, bidx := 2#33, bitcnt := 0#3, sr := 0x00#8,
                   cur := { row := 1#16, col := 0#16, ch := 0#2 } }) = true := by decide
/-- Rows 13 and 14: exhausted by its row, exhausted because WIDTH is 0. -/
theorem test_e_trunc :
    after (exec .eTrunc (encAt .write 1#33 4#3 0x90#8 cursorEnd))
      (fun t => t.enc.state == .done && t.trunc && t.cause == 0#4) = true ∧
    after (exec .eTrunc { encAt .write 0#33 0#3 0x48#8 Cursor.zero with width := 0#16, height := 5#16 })
      (fun t => t.enc.state == .done && t.trunc) = true := by decide

/-! ### DEC micro-operations (95_test_vectors.md 2.3) -/

/-- Row 1. -/
theorem test_d_read_zero :
    after (exec .dRead { decAt 0x00#8 0#4 0#8 false 0#32 Cursor.zero with gmem := [(0, 0xFE#8)] })
      (fun t => t.dec.sr == 0x00#8 && t.dec.bitcnt == 1#4 && t.dec.cur == { row := 0#16, col := 0#16, ch := 1#2 }) = true := by
  decide
/-- Row 2. -/
theorem test_d_read_one :
    after (exec .dRead { decAt 0x24#8 6#4 0#8 false 0#32 { row := 0#16, col := 2#16, ch := 0#2 } with
        gmem := [(6, 0x01#8)] })
      (fun t => t.dec.sr == 0x49#8 && t.dec.bitcnt == 7#4 && t.dec.cur == { row := 0#16, col := 2#16, ch := 1#2 }) = true := by
  decide
/-- Row 4. -/
theorem test_d_byte_first :
    after (exec .dByte (decAt 0x48#8 8#4 0x00#8 false 0#32 Cursor.zero))
      (fun t => t.omem == [] && t.dec.sr == 0x48#8 && t.dec.bitcnt == 0#4 && t.dec.hold == 0x48#8 && t.dec.holdv &&
        t.dec.oidx == 0#32) = true := by decide
/-- Row 7. -/
theorem test_d_byte_delivers :
    after (exec .dByte (decAt 0xFE#8 8#4 0x41#8 true 3#32 Cursor.zero))
      (fun t => t.omem == [(3, 0x41#8)] && t.dec.hold == 0xFE#8 && t.dec.oidx == 4#32) = true := by decide
/-- Row 9. -/
theorem test_d_match :
    after (exec .dMatch (decAt 0xFE#8 8#4 0xFF#8 true 2#32 Cursor.zero))
      (fun t => t.dec.state == .done && t.olen == 2#32 && t.mfound && t.omem == []) = true := by decide
/-- Row 11. -/
theorem test_d_finish_delivers :
    after (exec .dFinish (decAt 0x86#8 4#4 0x48#8 true 0#32 cursorEnd))
      (fun t => t.dec.state == .done && t.omem == [(0, 0x48#8)] && t.olen == 1#32 && t.dec.oidx == 1#32 && !t.taildrop)
      = true := by decide
/-- Row 12. -/
theorem test_d_finish_drops :
    after (exec .dFinish (decAt 0xFF#8 0#4 0xFF#8 true 2#32 cursorEnd))
      (fun t => t.dec.state == .done && t.omem == [] && t.olen == 2#32 && t.taildrop) = true := by decide

/-! ### Reference functions (95_test_vectors.md 2.1) -/

theorem test_scan :
    Ref.scan [0xFF#8] = [] ∧ Ref.scan [0xFE#8, 0xFF#8] = [0xFE#8] ∧
    Ref.scan [0xFF#8, 0xFF#8, 0xFE#8, 0x41#8] = [0xFF#8] ∧
    Ref.scan [0x41#8, 0xFF#8, 0xFE#8, 0x42#8, 0xFF#8, 0xFE#8] = [0x41#8] ∧
    Ref.scan [0x41#8, 0xFF#8, 0x42#8] = [0x41#8, 0xFF#8, 0x42#8] := by decide

theorem test_set_lsb_and_lin :
    Ref.setLsb 0xFE#8 true = 0xFF#8 ∧ Ref.setLsb 0x01#8 false = 0x00#8 ∧ Ref.gridLin 4 2 3 1 = 34 := by decide

/-! ### Witnesses: for each obligation with hypotheses, states and operands that meet them -/

/-- ENC in the middle of a byte of a valid one-unit payload: a state of the invariant with a unit running. -/
def embedding : State :=
  { block with
    enc := { state := .write, vidx := 1#32, bidx := 0#33, bitcnt := 1#3, sr := 0x90#8,
             cur := { row := 0#16, col := 0#16, ch := 1#2 } }
    plen := 1#32
    pmem := [(0, 0x48#32)]
    gmem := [(0, 0x36#8), (1, 0x37#8)] }

/-- DEC with one byte held. -/
def scanning : State :=
  { block with
    dec := { state := .scanning, sr := 0x41#8, bitcnt := 0#4, hold := 0x41#8, holdv := true, oidx := 0#32,
             cur := { row := 0#16, col := 2#16, ch := 2#2 } } }

theorem witness_embedding_inv : embedding.Inv where
  gmem := ⟨by decide, by decide⟩
  pmem := ⟨by decide, by decide⟩
  omem := ⟨by decide, by decide⟩
  oneRuns := by decide
  causeLegal := by decide
  causeClear := by decide
  errorLatched := by decide
  encFits := by decide
  validating := fun h => absurd h (by decide)
  embedding := fun _ => ⟨by unfold State.unitsValid; decide, by unfold Cursor.legal; decide, by decide, by decide, by decide, by decide⟩
  decFits := by decide
  scanning := fun h => absurd h (by decide)

theorem witness_scanning_inv : scanning.Inv where
  gmem := ⟨by decide, by decide⟩
  pmem := ⟨by decide, by decide⟩
  omem := ⟨by decide, by decide⟩
  oneRuns := by decide
  causeLegal := by decide
  causeClear := by decide
  errorLatched := by decide
  encFits := by decide
  validating := fun h => absurd h (by decide)
  embedding := fun h => absurd h (by decide)
  decFits := by decide
  scanning := fun _ => ⟨by decide, by unfold Cursor.legal; decide, by decide, by decide, by decide⟩

/-- DEC in the middle of a byte. -/
def reading : State := decAt 0x24#8 7#4 0xFF#8 true 0#32 { row := 2#16, col := 3#16, ch := 2#2 }

/-- The block with the payload "Hi" and 24 channels (V-H1). -/
def loaded : State := { block with width := 8#16, height := 1#16, plen := 2#32, pmem := [(0, 0x48#32), (1, 0x69#32)] }

/-- 24 channels. -/
def grid24 : Ref.Grid := { width := 8, height := 1, ch := List.replicate 24 0x80#8 }

theorem witness_ResetLeavesTheTableValues :
    (∃ (s : State) (rest : List Turn), s.inbox = .reset :: rest ∧ s.busy = true) ∧
    ∃ (i : Instr) (s t : State), hostOp i = true ∧ s.busy = true ∧ exec i s = .next t :=
  ⟨⟨{ embedding with inbox := [.reset] }, [], by decide⟩, .clear, embedding, _, by decide, by decide, rfl⟩

theorem witness_StatusShowsUnitStatesAndFlags : block.busy = false ∧ latched.busy = false := by decide

/-- BUSY with a register other than STATUS; register 9; registers 0, 1 (while BUSY) and 8. -/
theorem witness_RegReadAnswersTheRegister :
    (embedding.busy = true ∧ 0 ≠ 1 ∧ 9 ≠ 1) ∧ (block.busy = false ∧ 9 ≤ 9) ∧
    (block.busy = false ∧ 0 < 9 ∧ 8 < 9) ∧ embedding.busy = true ∧ 1 < 9 := by decide

/-- Registers 0; 2, 3, 4; 1, 5 and 8; 9; and BUSY. -/
theorem witness_RegWriteStoresTheRegister :
    embedding.busy = true ∧ block.busy = false ∧ 9 ≤ 9 ∧ (5 ≤ 5 ∧ 5 ≤ 8) ∧ 5 ≤ 8 ∧ 8 ≤ 8 := by decide

theorem witness_DispatchDecidesInOrder :
    embedding.busy = true ∧ latched.busy = false ∧ latched.cause ≠ 0#4 ∧ block.busy = false ∧ block.cause = 0#4 ∧
    (0x00000004#32 ≠ 0x00000003#32) ∧ 0x00000003#32 < 0x00000004#32 := by decide

theorem witness_CommandIsAWriteToCmd : block.busy = false := by decide

theorem witness_NopChangesNothing : block.busy = false ∧ latched.busy = false ∧ embedding.busy = true := by decide

/-- N = 63 of 64 and PLEN = 8 of 8; N = 66; PLEN = 9. -/
theorem witness_EncStartPutsEncInValidate :
    (∃ s : State, s.busy = false ∧ s.cause = 0#4 ∧ 3 * s.width.toNat * s.height.toNat ≤ s.cfg.gmax.val ∧
      s.plen.toNat ≤ s.cfg.pmax.val) ∧
    (∃ s : State, s.busy = false ∧ s.cause = 0#4 ∧ s.cfg.gmax.val < 3 * s.width.toNat * s.height.toNat) ∧
    ∃ s : State, s.busy = false ∧ s.cause = 0#4 ∧ s.cfg.pmax.val < s.plen.toNat :=
  ⟨⟨{ block with width := 7#16, plen := 8#32 }, by decide⟩, ⟨{ block with width := 11#16, height := 2#16 }, by decide⟩,
    { block with plen := 9#32 }, by decide⟩

theorem witness_DecStartPutsDecInScanning :
    (∃ s : State, s.busy = false ∧ s.cause = 0#4 ∧ 3 * s.width.toNat * s.height.toNat ≤ s.cfg.gmax.val) ∧
    ∃ s : State, s.busy = false ∧ s.cause = 0#4 ∧ s.cfg.gmax.val < 3 * s.width.toNat * s.height.toNat :=
  ⟨⟨{ block with width := 7#16 }, by decide⟩, { block with width := 11#16, height := 2#16 }, by decide⟩

theorem witness_ClearReturnsUnitsToIdle : block.busy = false ∧ latched.busy = false := by decide

/-- Addresses 63 and 64 of GMEM. -/
theorem witness_GReadReturnsTheElement :
    embedding.busy = true ∧ block.busy = false ∧ block.cfg.gmax.val ≤ 64 ∧ 63 < block.cfg.gmax.val := by decide

theorem witness_GWriteStoresTheElement :
    embedding.busy = true ∧ block.busy = false ∧ block.cfg.gmax.val ≤ 64 ∧ 63 < block.cfg.gmax.val ∧ 62 ≠ 63 := by decide

/-- Addresses 7 and 8 of PMEM. -/
theorem witness_PReadReturnsTheElement :
    embedding.busy = true ∧ block.busy = false ∧ block.cfg.pmax.val ≤ 8 ∧ 7 < block.cfg.pmax.val := by decide

theorem witness_PWriteStoresTheElement :
    embedding.busy = true ∧ block.busy = false ∧ block.cfg.pmax.val ≤ 8 ∧ 7 < block.cfg.pmax.val ∧ 6 ≠ 7 := by decide

/-- Addresses 7 and 8 of OMEM. -/
theorem witness_OReadReturnsTheElement :
    embedding.busy = true ∧ block.busy = false ∧ block.cfg.gmax.val / 8 ≤ 8 ∧ 7 < block.cfg.gmax.val / 8 := by decide

theorem witness_FirstFaultSticks :
    block.cause = 0#4 ∧ latched.cause ≠ 0#4 ∧
    ∃ t, exec (.gRead 64) latched = .next t ∧ clears (.gRead 64) = false :=
  ⟨by decide, by decide, _, rfl, by decide⟩

/-- A host access, and E_VFAIL. -/
theorem witness_FaultLeavesMemoriesAndUnits :
    (∃ t, exec (.gRead 64) block = .next t ∧ block.cause = 0#4 ∧ t.cause ≠ 0#4) ∧
    ∃ s t : State, exec .eVfail s = .next t ∧ s.cause = 0#4 ∧ t.cause ≠ 0#4 :=
  ⟨⟨_, rfl, by decide, by decide⟩,
    { encIn .validate with plen := 1#32, pmem := [(0, 0x100#32)] }, _,
    (exec_eVfail_iff _ _).2 ⟨⟨by decide, by decide, by decide⟩, rfl⟩, by decide, by decide⟩

theorem witness_OnlyVfailRaisesInAUnit :
    hostOp .eWrite = false ∧ Instr.eWrite ≠ .eVfail ∧ ∃ t, exec .eWrite embedding = .next t :=
  ⟨by decide, by decide, _, (exec_eWrite_iff _ _).2 ⟨⟨by decide, by decide⟩, rfl⟩⟩

theorem witness_BusyRefusesTheHost :
    (embedding.busy = true ∧ embedding.cause = 0#4) ∧ (∃ s : State, s.busy = true ∧ s.cause ≠ 0#4) ∧
    (Instr.regRead 0).format = .xact ∧ (Instr.regWrite 0 4#32).format = .xact ∧ (Instr.gRead 64).format = .xact ∧
    (Instr.gWrite 0 0#8).format = .xact ∧ (Instr.pRead 0).format = .xact ∧ (Instr.pWrite 0 0#32).format = .xact ∧
    (Instr.oRead 0).format = .xact :=
  ⟨by decide, ⟨{ embedding with cause := 5#4 }, by decide⟩, rfl, rfl, rfl, rfl, rfl, rfl, rfl⟩

/-- The first address outside each space. -/
theorem witness_OutOfRangeIsRefused :
    block.busy = false ∧ latched.busy = false ∧ 9 ≤ 9 ∧ block.cfg.gmax.val ≤ 64 ∧ block.cfg.pmax.val ≤ 8 ∧
    block.cfg.gmax.val / 8 ≤ 8 := by decide

/-- The last code unit, with the largest valid value. -/
theorem witness_EVchkMovesToTheNextUnit :
    ∃ s : State, s.enc.state = .validate ∧ s.enc.vidx.toNat < s.plen.toNat ∧ (s.pmemRead s.enc.vidx.toNat).toNat ≤ 255 :=
  ⟨{ block with enc := { EncUnit.reset with state := .validate, vidx := 7#32 }, plen := 8#32, pmem := [(7, 255#32)] },
    by decide⟩

theorem witness_EVfailRecordsTheOffendingUnit :
    ∃ s : State, s.enc.state = .validate ∧ s.enc.vidx.toNat < s.plen.toNat ∧ 255 < (s.pmemRead s.enc.vidx.toNat).toNat ∧
      s.cause = 0#4 :=
  ⟨{ encIn .validate with plen := 1#32, pmem := [(0, 256#32)] }, by decide⟩

theorem witness_EVfailKeepsAnEarlierFault :
    ∃ s : State, s.enc.state = .validate ∧ s.enc.vidx.toNat < s.plen.toNat ∧ 255 < (s.pmemRead s.enc.vidx.toNat).toNat ∧
      s.cause ≠ 0#4 :=
  ⟨{ encIn .validate with plen := 1#32, pmem := [(0, 256#32)], cause := 5#4 }, by decide⟩

theorem witness_EVendStartsEmbedding : (encIn .validate).enc.state = .validate ∧ (encIn .validate).enc.vidx = 0#32 ∧
    (encIn .validate).plen = 0#32 := by decide

/-- The last payload byte, and the two marker bytes. -/
theorem witness_EFetchLoadsTheFramedByte :
    (∃ s : State, s.enc.state = .fetch ∧ s.enc.bidx.toNat < s.plen.toNat + 2 ∧ s.enc.bidx.toNat + 1 = s.plen.toNat) ∧
    (∃ s : State, s.enc.state = .fetch ∧ s.enc.bidx.toNat < s.plen.toNat + 2 ∧ s.enc.bidx.toNat = s.plen.toNat) ∧
    ∃ s : State, s.enc.state = .fetch ∧ s.enc.bidx.toNat < s.plen.toNat + 2 ∧ s.enc.bidx.toNat = s.plen.toNat + 1 :=
  ⟨⟨encAt .fetch 1#33 0#3 0#8 Cursor.zero, by decide⟩, ⟨encAt .fetch 2#33 0#3 0#8 Cursor.zero, by decide⟩,
    encAt .fetch 3#33 0#3 0#8 Cursor.zero, by decide⟩

theorem witness_ECompleteEndsInDone : ∃ s : State, s.enc.state = .fetch ∧ s.enc.bidx.toNat = s.plen.toNat + 2 :=
  ⟨encAt .fetch 4#33 0#3 0#8 Cursor.zero, by decide⟩

theorem witness_ETruncEndsInDoneWithTrunc :
    (∃ s : State, s.enc.state = .write ∧ s.enc.cur.row = s.height) ∧ ∃ s : State, s.enc.state = .write ∧ s.width = 0#16 :=
  ⟨⟨encAt .write 1#33 4#3 0x90#8 cursorEnd, by decide⟩, { encIn .write with width := 0#16 }, by decide⟩

/-- The last bit of a byte and another one, at a row's end. -/
theorem witness_EWriteWritesOneBit :
    (∃ s : State, s.enc.state = .write ∧ s.width ≠ 0#16 ∧ s.enc.cur.row ≠ s.height ∧ s.enc.bitcnt = 7#3) ∧
    ∃ s : State, s.enc.state = .write ∧ s.width ≠ 0#16 ∧ s.enc.cur.row ≠ s.height ∧ s.enc.bitcnt ≠ 7#3 :=
  ⟨⟨encAt .write 1#33 7#3 0x80#8 { row := 2#16, col := 3#16, ch := 2#2 }, by decide⟩, embedding, by decide⟩

/-- The eighth bit, from the last channel of the grid. -/
theorem witness_DReadShiftsOneBitIn :
    reading.dec.state = .scanning ∧ reading.dec.bitcnt.toNat < 8 ∧ reading.width ≠ 0#16 ∧
      reading.dec.cur.row ≠ reading.height := by decide

theorem witness_DMatchStopsAtTheMarker :
    ∃ s : State, s.dec.state = .scanning ∧ s.dec.bitcnt = 8#4 ∧ s.dec.holdv = true ∧ s.dec.hold = 0xFF#8 ∧ s.dec.sr = 0xFE#8 :=
  ⟨decAt 0xFE#8 8#4 0xFF#8 true 0#32 Cursor.zero, by decide⟩

/-- Nothing held, with the marker's bytes standing in the registers; 0xFF held and another byte than 0xFE. -/
theorem witness_DByteDeliversTheHeldByte :
    (∃ s : State, s.dec.state = .scanning ∧ s.dec.bitcnt = 8#4 ∧
      ¬(s.dec.holdv = true ∧ s.dec.hold = 0xFF#8 ∧ s.dec.sr = 0xFE#8) ∧ s.dec.holdv = false) ∧
    ∃ s : State, s.dec.state = .scanning ∧ s.dec.bitcnt = 8#4 ∧
      ¬(s.dec.holdv = true ∧ s.dec.hold = 0xFF#8 ∧ s.dec.sr = 0xFE#8) ∧ s.dec.holdv = true :=
  ⟨⟨decAt 0xFE#8 8#4 0xFF#8 false 0#32 Cursor.zero, by decide⟩, decAt 0xFF#8 8#4 0xFF#8 true 1#32 Cursor.zero, by decide⟩

theorem witness_DFinishAppliesTheTailRule :
    (∃ s : State, s.dec.state = .scanning ∧ s.dec.bitcnt.toNat < 8 ∧ s.dec.cur.row = s.height ∧ s.dec.holdv = true ∧
      s.dec.hold ≠ 0xFF#8) ∧
    (∃ s : State, s.dec.state = .scanning ∧ s.dec.bitcnt.toNat < 8 ∧ s.dec.cur.row = s.height ∧ s.dec.holdv = true ∧
      s.dec.hold = 0xFF#8) ∧
    ∃ s : State, s.dec.state = .scanning ∧ s.dec.bitcnt.toNat < 8 ∧ s.width = 0#16 ∧ s.dec.holdv = false :=
  ⟨⟨decAt 0x03#8 3#4 0xFE#8 true 5#32 cursorEnd, by decide⟩, ⟨decAt 0x7F#8 7#4 0xFF#8 true 2#32 cursorEnd, by decide⟩,
    { decAt 0x00#8 0#4 0x00#8 false 0#32 Cursor.zero with width := 0#16 }, by decide⟩

theorem witness_MicroOpRunsExactlyInItsRow : hostOp .eVchk = false ∧ hostOp .dFinish = false := by decide

theorem witness_StepRunsTheDecodedOperation :
    (∃ (s : State) (q : Request) (rest : List Turn) (i : Instr), s.inbox = .host q :: rest ∧ decode (.xact q) = .ok i) ∧
    (∃ (s : State) (rest : List Turn) (i : Instr), s.inbox = .unit :: rest ∧ s.enc.state.running = true ∧ decode (.encStep s.encSeq) = .ok i) ∧
    (∃ (s : State) (rest : List Turn) (i : Instr), s.inbox = .unit :: rest ∧ s.enc.state.running = false ∧ s.dec.state = .scanning ∧
      decode (.decStep s.decSeq) = .ok i) ∧
    (∃ (s : State) (i : Instr), s.inbox = [] ∧ s.enc.state.running = true ∧ decode (.encStep s.encSeq) = .ok i) ∧
    (∃ (s : State) (i : Instr), s.inbox = [] ∧ s.enc.state.running = false ∧ s.dec.state = .scanning ∧
      decode (.decStep s.decSeq) = .ok i) ∧
    (∃ (s : State) (rest : List Turn), s.inbox = .unit :: rest ∧ s.busy = false) ∧ ∃ s : State, s.inbox = [] ∧ s.busy = false :=
  ⟨⟨block.withRequest Request.readStatus, Request.readStatus, [], .regRead 1, by decide, by decide⟩,
    ⟨{ embedding with inbox := [.unit] }, [], .eWrite, by decide⟩,
    ⟨{ scanning with inbox := [.unit] }, [], .dRead, by decide⟩, ⟨embedding, .eWrite, by decide⟩,
    ⟨scanning, .dRead, by decide⟩, ⟨{ block with inbox := [.unit] }, [], by decide⟩, block, by decide⟩

theorem witness_WaitEndsWhenBusyEnds :
    (∃ (s t : State) (rest : List Turn), s.inbox = .wait :: rest ∧ s.busy = true ∧ step s = .next t) ∧
    ∃ (s : State) (rest : List Turn), s.inbox = .wait :: rest ∧ s.busy = false :=
  ⟨⟨{ encIn .validate with inbox := [.wait] }, _, [], by decide, by decide,
      (exec_eVend_iff { encIn .validate with inbox := [.wait] } _).2 ⟨⟨by decide, by decide⟩, rfl⟩⟩,
    { block with inbox := [.wait] }, [], by decide⟩

theorem witness_ReservedWordsOnlyFault :
    (∃ w : Word, w ≠ 0x00000000#32 ∧ w ≠ 0x00000001#32 ∧ w ≠ 0x00000002#32 ∧ w ≠ 0x00000003#32) ∧
    block.busy = false ∧ block.cause = 0#4 :=
  ⟨⟨0x00000004#32, by decide⟩, by decide, by decide⟩

theorem witness_DecodeAndEncodeAgree :
    (∃ (w : Word) (i : Instr), decode (.cmd w) = .ok i) ∧ ∃ (q : Request) (i : Instr), decode (.xact q) = .ok i :=
  ⟨⟨3#32, .clear, by decide⟩, Request.readStatus, .regRead 1, by decide⟩

theorem witness_StepKeepsTheInvariant :
    ∃ s t : State, s.Inv ∧ s.busy = true ∧ step s = .next t :=
  ⟨embedding, _, witness_embedding_inv, by decide, (exec_eWrite_iff _ _).2 ⟨⟨by decide, by decide⟩, rfl⟩⟩

theorem witness_RunningUnitIsNeverStuck :
    (embedding.Inv ∧ embedding.busy = true ∧ embedding.inbox = []) ∧
    scanning.Inv ∧ scanning.busy = true ∧ scanning.inbox = [] :=
  ⟨⟨witness_embedding_inv, by decide, rfl⟩, witness_scanning_inv, by decide, rfl⟩

theorem witness_UnitsStartOnlyByCommand :
    (∃ t, exec .encStart block = .next t ∧ block.enc.state.running = false ∧ t.enc.state.running = true) ∧
    ∃ t, exec .decStart block = .next t ∧ block.dec.state.running = false ∧ t.dec.state.running = true :=
  ⟨⟨_, rfl, by decide, by decide⟩, _, rfl, by decide, by decide⟩

theorem witness_EachMemoryHasItsWriters :
    (∃ t, exec (.gWrite 63 1#8) block = .next t ∧ t.gmem ≠ block.gmem) ∧
    (∃ t, exec (.pWrite 7 1#32) block = .next t ∧ t.pmem ≠ block.pmem) ∧
    ∃ s t : State, exec .dByte s = .next t ∧ t.omem ≠ s.omem :=
  ⟨⟨_, rfl, by decide⟩, ⟨_, rfl, by decide⟩, decAt 0xFE#8 8#4 0x41#8 true 3#32 Cursor.zero, _,
    (exec_dByte_iff_of_held rfl _).2 ⟨⟨by decide, by decide, by decide⟩, rfl⟩, by decide⟩

/-- The last channel of the grid. -/
theorem witness_CursorIsItsLinearPosition :
    ∃ (c : Cursor) (w h : BitVec 16), c.legal w h ∧ c.exhausted w h = false :=
  ⟨{ row := 2#16, col := 3#16, ch := 2#2 }, 4#16, 3#16, by unfold Cursor.legal; decide, by decide⟩

theorem witness_HostCannotDisturbARun :
    ∃ (x i : Instr) (s u t : State), s.busy = true ∧ hostOp x = true ∧ hostOp i = false ∧ exec x s = .next u ∧ exec i s = .next t :=
  ⟨.gWrite 0 0#8, .eWrite, embedding, _, _, by decide, by decide, by decide, rfl,
    (exec_eWrite_iff _ _).2 ⟨⟨by decide, by decide⟩, rfl⟩⟩

theorem witness_EncoderRunEmbedsThePayload :
    loaded.busy = false ∧ loaded.cause = 0#4 ∧ loaded.inbox = [] ∧ loaded.channels ≤ loaded.cfg.gmax.val ∧
    loaded.plen.toNat ≤ loaded.cfg.pmax.val ∧ Ref.validPayload loaded.payload = true := by decide

theorem witness_EncoderRunRejectsABadPayload :
    ∃ s : State, s.busy = false ∧ s.cause = 0#4 ∧ s.inbox = [] ∧ s.channels ≤ s.cfg.gmax.val ∧
      s.plen.toNat ≤ s.cfg.pmax.val ∧ Ref.validPayload s.payload = false :=
  ⟨{ loaded with pmem := [(0, 0x48#32), (1, 0x100#32)] }, by decide⟩

theorem witness_DecoderRunExtractsThePayload :
    loaded.busy = false ∧ loaded.cause = 0#4 ∧ loaded.inbox = [] ∧ loaded.channels ≤ loaded.cfg.gmax.val := by decide

/-- `8 * PLEN + 8 = N`: one marker byte fits, and no more. -/
theorem witness_MachineRoundTrip :
    loaded.busy = false ∧ loaded.cause = 0#4 ∧ loaded.inbox = [] ∧ loaded.channels ≤ loaded.cfg.gmax.val ∧
    loaded.plen.toNat ≤ loaded.cfg.pmax.val ∧ Ref.validPayload loaded.payload = true ∧
    Ref.hasMarker (Ref.payloadBytes loaded.payload) = false ∧ 8 * loaded.plen.toNat + 8 = loaded.channels := by decide

theorem witness_RoundTripWithoutInnerMarker :
    Ref.hasMarker [0x48#8, 0x69#8] = false ∧ 8 * [0x48#8, 0x69#8].length + 8 = grid24.ch.length := by decide

theorem witness_EncodingAltersOnlyLsbsOfThePrefix :
    grid24.ch[23]? = some 0x80#8 ∧ 8 * ([] : List Byte).length + 16 ≤ 16 := by decide

theorem witness_EncodingPlacesEachBit :
    15 < 8 * ([] : List Byte).length + 16 ∧ grid24.ch[15]? = some 0x80#8 := by decide

theorem witness_EmptyPayloadDecodesEmpty : 16 ≤ 16 ∧ grid24.ch[16]? = some 0x80#8 := by decide

theorem witness_InnerMarkerCutsTheDecode :
    Ref.hasMarker [0x41#8] = false ∧ 8 * ([0x41#8].length + 2) = grid24.ch.length := by decide

theorem witness_EncodingTwiceIsEncodingOnce :
    Ref.hasMarker [0xFF#8] = false ∧ Ref.fits grid24 [0xFF#8] = true := by decide

theorem witness_DecodeLengthIsBounded :
    Ref.scanFound (Ref.groups (Ref.lsbs (Ref.encodeGrid grid24 [0x41#8]))) = true := by decide

end Sys2Proof.Tests
end

section
/-! The host registers: what the STATUS word shows (10_state.md R23), and the register transactions where they are
neither refused nor a write that has an effect (43_host_commands.md R201, R202). -/

namespace Sys2Proof.Machine

/-! ### The STATUS word -/

/-- A unit runs exactly in one of the four running states (10_state.md R32, R38). -/
theorem State.busy_iff_unit_state (s : State) :
    s.busy = true ↔
      s.enc.state = .validate ∨ s.enc.state = .fetch ∨ s.enc.state = .write ∨ s.dec.state = .scanning := by
  rw [s.busy_iff, EncState.running_iff, DecState.running_iff, or_assoc, or_assoc]

/-- Each field of STATUS is the flag or state code R23 puts there. -/
theorem State.status_fields (s : State) :
    s.status.getLsbD 0 = s.busy ∧ s.status.extractLsb' 1 3 = s.enc.state.code ∧
    s.status.extractLsb' 4 2 = s.dec.state.code ∧ s.status.getLsbD 6 = s.trunc ∧ s.status.getLsbD 7 = s.mfound ∧
    s.status.getLsbD 8 = s.taildrop ∧ s.status.getLsbD 9 = s.err ∧ s.status.extractLsb' 10 22 = 0#22 :=
  status_layout s.err s.taildrop s.mfound s.trunc s.busy s.dec.state.code s.enc.state.code

/-! ### Register transactions -/

/-- A RegRead that is not refused answers what the register holds; STATUS is never refused for BUSY. -/
theorem exec_regRead_of_regValue {s : State} {r : Nat} {v : Word} (hr : s.busy = false ∨ r = 1)
    (hv : s.regValue r = some v) : exec (.regRead r) s = .next (s.replyWord v) := by
  have hallowed : ¬(s.busy = true ∧ r ≠ 1) := by
    rintro ⟨hb, h1⟩
    rcases hr with hr | hr
    · simp [hb] at hr
    · exact h1 hr
  simp [exec, execRegRead, hallowed, hv]

/-- A RegWrite to a register that is only read (STATUS, OLEN and the fault registers) is dropped without fault. -/
theorem exec_regWrite_of_readOnly {s : State} {r : Nat} (hb : s.busy = false) (hr : r = 1 ∨ 5 ≤ r ∧ r ≤ 8) (v : Word) :
    exec (.regWrite r v) s = .next s := by
  have h0 : r ≠ 0 := by omega
  have h2 : r ≠ 2 := by omega
  have h3 : r ≠ 3 := by omega
  have h4 : r ≠ 4 := by omega
  have h9 : ¬9 ≤ r := by omega
  simp [exec, execRegWrite, hb, h0, h2, h3, h4, h9]

/-- Settles O2: the fields of the layout of STATUS, and the register transactions on register 1. -/
theorem statusShowsUnitStatesAndFlags : Obligations.StatusShowsUnitStatesAndFlags := by
  unfold Obligations.StatusShowsUnitStatesAndFlags
  intro s
  obtain ⟨hbusy, henc, hdec, htrunc, hmfound, htail, herr, hreserved⟩ := s.status_fields
  refine ⟨?_, henc.trans ?_, hdec.trans ?_, htrunc, hmfound, htail, ?_, hreserved, ?_, ?_⟩
  · rw [hbusy, s.busy_iff_unit_state]
  · cases s.enc.state <;> rfl
  · cases s.dec.state <;> rfl
  · rw [herr, s.err_iff]
  · exact exec_regRead_of_regValue (.inr rfl) rfl
  · exact fun v hb => exec_regWrite_of_readOnly hb (.inl rfl) v

end Sys2Proof.Machine
end

section
/-! The transactions while a unit is BUSY (20_memory.md R70, 60_exceptions.md R254): what each one does, and that the
host may only read STATUS. -/

namespace Sys2Proof.Machine

/-! ### What a recorded fault leaves in the fault registers -/

/-- The three fault registers after a fault is recorded with none latched before (60_exceptions.md R252). -/
theorem State.raise_records {s : State} (hc : s.cause = 0#4) (c : Cause) (a : Nat) (d : Word) :
    (s.raise c a d).cause = c.code ∧ (s.raise c a d).faddr = BitVec.ofNat 32 a ∧ (s.raise c a d).fdata = d := by
  rw [State.raise_of_clear hc]
  exact ⟨rfl, rfl, rfl⟩

/-! ### The transactions while BUSY -/

/-- STATUS is answered in every state, BUSY or not. -/
theorem exec_regRead_status (s : State) : exec (.regRead 1) s = .next (s.replyWord s.status) :=
  exec_regRead_of_regValue (.inr rfl) rfl

section Busy
variable {s : State} (hb : s.busy = true)
include hb

theorem exec_regRead_of_busy {r : Nat} (hr : r ≠ 1) :
    exec (.regRead r) s = .next (s.refuseWord .accessBusy r .reg) := by
  simp [exec, execRegRead, hb, hr]

theorem exec_regWrite_cmd_of_busy (v : Word) : exec (.regWrite 0 v) s = .next (s.raise .cmdBusy 0 v) := by
  simp [exec, execRegWrite, State.dispatch, hb]

theorem exec_regWrite_of_busy {r : Nat} (hr : r ≠ 0) (v : Word) :
    exec (.regWrite r v) s = .next (s.raise .accessBusy r Space.reg.code) := by
  simp [exec, execRegWrite, hb, hr]

theorem exec_gRead_of_busy (a : Nat) : exec (.gRead a) s = .next (s.refuseByte .accessBusy a .gmem) := by
  simp [exec, execGRead, State.accessFault_of_busy hb]

theorem exec_gWrite_of_busy (a : Nat) (v : Byte) :
    exec (.gWrite a v) s = .next (s.raise .accessBusy a Space.gmem.code) := by
  simp [exec, execGWrite, State.accessFault_of_busy hb]

theorem exec_pRead_of_busy (a : Nat) : exec (.pRead a) s = .next (s.refuseWord .accessBusy a .pmem) := by
  simp [exec, execPRead, State.accessFault_of_busy hb]

theorem exec_pWrite_of_busy (a : Nat) (v : Word) :
    exec (.pWrite a v) s = .next (s.raise .accessBusy a Space.pmem.code) := by
  simp [exec, execPWrite, State.accessFault_of_busy hb]

theorem exec_oRead_of_busy (a : Nat) : exec (.oRead a) s = .next (s.refuseByte .accessBusy a .omem) := by
  simp [exec, execORead, State.accessFault_of_busy hb]

/-- A register read answers some word while BUSY: STATUS, or any word where it is refused. -/
theorem exec_regRead_answers_of_busy (r : Nat) {t : State} (h : exec (.regRead r) s = .next t) :
    ∃ v, t.outbox = .word v :: s.outbox := by
  by_cases hr : r = 1
  · subst hr
    cases h.symm.trans (exec_regRead_status s)
    exact ⟨_, s.replyWord_outbox _⟩
  · cases h.symm.trans (exec_regRead_of_busy hb hr)
    exact ⟨_, s.refuseWord_outbox _ _ _⟩

/-- A register write answers nothing while BUSY, whether it goes to CMD or not. -/
theorem exec_regWrite_outbox_of_busy (r : Nat) (v : Word) {t : State} (h : exec (.regWrite r v) s = .next t) :
    t.outbox = s.outbox := by
  by_cases hr : r = 0
  · subst hr
    cases h.symm.trans (exec_regWrite_cmd_of_busy hb v)
    exact s.raise_outbox _ _ _
  · cases h.symm.trans (exec_regWrite_of_busy hb hr v)
    exact s.raise_outbox _ _ _

end Busy

/-- Settles O19: the frame and the latched fault hold because the host can only be noted while BUSY
(`exec_host_noted_of_busy`); the answers and the recorded fault follow from what each transaction does while BUSY. -/
theorem busyRefusesTheHost : Obligations.BusyRefusesTheHost := by
  unfold Obligations.BusyRefusesTheHost
  intro i s hb hx
  have hi : hostOp i = true := by simp [hostOp, hx]
  obtain ⟨t, ht⟩ := exec_host_completes hi s
  have hnoted : s.Noted t := exec_host_noted_of_busy hb hi ht
  obtain ⟨henc, hdec, hcfg, hres, hmem, hinbox⟩ := hnoted.frame
  -- `i` is known in each clause below, so `t` is the state the rule of that transaction gives
  have same {u : State} (hu : exec i s = .next u) : t = u := Host.Outcome.next.inj (ht.symm.trans hu)
  refine ⟨t, ht, henc, hdec, hcfg, hres, hmem, hinbox, ?wordOfReg, ?byteOfMem, ?wordOfPmem, ?writes, ?status,
    fun _ hc => hnoted.sameFault hc, fun hc => ⟨?faultRegRead, ?faultCmd, ?faultRegWrite, ?faultGRead,
      ?faultGWrite, ?faultPRead, ?faultPWrite, ?faultORead⟩⟩
  case wordOfReg =>
    rintro r rfl
    exact exec_regRead_answers_of_busy hb r ht
  case byteOfMem =>
    rintro a (rfl | rfl)
    · exact ⟨_, same (exec_gRead_of_busy hb a) ▸ s.refuseByte_outbox _ _ _⟩
    · exact ⟨_, same (exec_oRead_of_busy hb a) ▸ s.refuseByte_outbox _ _ _⟩
  case wordOfPmem =>
    rintro a rfl
    exact ⟨_, same (exec_pRead_of_busy hb a) ▸ s.refuseWord_outbox _ _ _⟩
  case writes =>
    rintro a v w (rfl | rfl | rfl)
    · exact exec_regWrite_outbox_of_busy hb a w ht
    · exact same (exec_gWrite_of_busy hb a v) ▸ s.raise_outbox _ _ _
    · exact same (exec_pWrite_of_busy hb a w) ▸ s.raise_outbox _ _ _
  case status =>
    rintro rfl
    obtain rfl := same (exec_regRead_status s)
    exact ⟨⟨rfl, rfl, rfl⟩, rfl⟩
  case faultRegRead =>
    rintro r rfl hr
    obtain rfl := same (exec_regRead_of_busy hb hr)
    exact State.raise_records hc _ _ _
  case faultCmd =>
    rintro v rfl
    obtain rfl := same (exec_regWrite_cmd_of_busy hb v)
    exact State.raise_records hc _ _ _
  case faultRegWrite =>
    rintro r v rfl hr
    obtain rfl := same (exec_regWrite_of_busy hb hr v)
    exact State.raise_records hc _ _ _
  case faultGRead =>
    rintro a rfl
    obtain rfl := same (exec_gRead_of_busy hb a)
    exact State.raise_records hc _ _ _
  case faultGWrite =>
    rintro a v rfl
    obtain rfl := same (exec_gWrite_of_busy hb a v)
    exact State.raise_records hc _ _ _
  case faultPRead =>
    rintro a rfl
    obtain rfl := same (exec_pRead_of_busy hb a)
    exact State.raise_records hc _ _ _
  case faultPWrite =>
    rintro a v rfl
    obtain rfl := same (exec_pWrite_of_busy hb a v)
    exact State.raise_records hc _ _ _
  case faultORead =>
    rintro a rfl
    obtain rfl := same (exec_oRead_of_busy hb a)
    exact State.raise_records hc _ _ _

end Sys2Proof.Machine
end

section
/-! The reserved command words (30_encoding.md R101): what the decoder answers, and what a write of one to CMD does. -/

namespace Sys2Proof.Machine

/-- A word that is no command's word is rejected as reserved. -/
theorem decodeCommand_of_reserved {w : Word} (hw : ∀ c : Command, w ≠ c.word) :
    decodeCommand w = .error .reservedCommand := by
  cases hd : decodeCommand w with
  | ok c => exact absurd ((decodeCommand_eq_ok_iff w c).1 hd) (hw c)
  | error e => rw [decodeCommand_error hd]

/-- The last line of dispatch (43_host_commands.md R203): no unit is BUSY, no fault is latched, the word is reserved. -/
theorem State.dispatch_of_reserved {s : State} {w : Word} (hb : s.busy = false) (hc : s.cause = 0#4)
    (hw : ∀ c : Command, w ≠ c.word) : s.dispatch w = s.raise .cmdReserved 0 w := by
  simp [State.dispatch, hb, decodeCommand_of_reserved hw, hc]

/-- A RegWrite to CMD is dispatched. -/
theorem exec_regWrite_cmd (s : State) (v : Word) : exec (.regWrite 0 v) s = .next (s.dispatch v) := rfl

/-- Settles O37: a word other than the four of R100 is no command's word, so the decoder rejects it and dispatch raises
CMD_RESERVED, which records it since no fault is latched. -/
theorem reservedWordsOnlyFault : Obligations.ReservedWordsOnlyFault := by
  unfold Obligations.ReservedWordsOnlyFault
  intro w hnop henc hdec hclear
  have hw (c : Command) : w ≠ c.word := by
    cases c with
    | nop => exact hnop
    | encStart => exact henc
    | decStart => exact hdec
    | clear => exact hclear
  refine ⟨?decoder, fun s hb hc => ?write⟩
  case decoder => rw [decode, decodeCommand_of_reserved hw, Except.map]
  case write =>
    rw [exec_regWrite_cmd, State.dispatch_of_reserved hb hc hw, State.raise_of_clear hc]
    rfl

end Sys2Proof.Machine
end


section
/-! The micro-operations of ENC that write no channel (41_encoder.md R141 to R146): where R104 selects one, its whole
effect. -/

namespace Sys2Proof.Machine

/-! ### The operands of the micro-operations -/

/-- A register below another register of its width does not wrap when 1 is added (41_encoder.md R141: VIDX < PLEN). -/
theorem toNat_add_one_of_lt {x y : Word} (h : x.toNat < y.toNat) : (x + 1#32).toNat = x.toNat + 1 := by
  have hy : y.toNat < 2 ^ 32 := y.isLt
  exact BitVec.toNat_add_of_lt (show x.toNat + 1 < 2 ^ 32 by omega)

/-- ENC's grid is exhausted exactly where R43 says so. -/
theorem State.encExhausted_iff (s : State) : s.encExhausted = true ↔ s.width = 0#16 ∨ s.enc.cur.row = s.height :=
  decide_eq_true_iff

/-- A byte of the framed payload (41_encoder.md R140): bits 7:0 of a code unit, or a byte of the marker. -/
theorem State.frameByte_eq (s : State) (i : Nat) :
    s.frameByte i =
      if i < s.plen.toNat then (s.pmemRead i).extractLsb' 0 8 else if i = s.plen.toNat then 0xFF#8 else 0xFE#8 := by
  rw [State.frameByte, BitVec.setWidth_eq_extractLsb' (by decide)]

/-! ### Validation -/

/-- Settles O21: E_VCHK is selected, and its whole effect is VIDX + 1, which does not wrap below PLEN. -/
theorem eVchkMovesToTheNextUnit : Obligations.EVchkMovesToTheNextUnit := by
  unfold Obligations.EVchkMovesToTheNextUnit
  intro s hstate hvidx hunit
  exact ⟨_, (exec_eVchk_iff s _).2 ⟨⟨hstate, hvidx, hunit⟩, rfl⟩, toNat_add_one_of_lt hvidx, rfl⟩

/-- Settles O22: E_VFAIL is selected, and the fault it raises is recorded since none is latched. -/
theorem eVfailRecordsTheOffendingUnit : Obligations.EVfailRecordsTheOffendingUnit := by
  unfold Obligations.EVfailRecordsTheOffendingUnit
  intro s hstate hvidx hunit hcause
  refine (exec_eVfail_iff s _).2 ⟨⟨hstate, hvidx, hunit⟩, ?_⟩
  rw [State.raise_of_clear hcause, BitVec.ofNat_toNat, BitVec.setWidth_eq]
  rfl

/-- Settles O24: E_VEND is selected at VIDX = PLEN. -/
theorem eVendStartsEmbedding : Obligations.EVendStartsEmbedding := by
  unfold Obligations.EVendStartsEmbedding
  intro s hstate hvidx
  exact (exec_eVend_iff s _).2 ⟨⟨hstate, hvidx⟩, rfl⟩

/-! ### Embedding -/

/-- Settles O25: E_FETCH is selected below PLEN + 2, and loads byte BIDX of the framed payload. -/
theorem eFetchLoadsTheFramedByte : Obligations.EFetchLoadsTheFramedByte := by
  unfold Obligations.EFetchLoadsTheFramedByte
  intro s hstate hbidx
  refine (exec_eFetch_iff s _).2 ⟨⟨hstate, hbidx⟩, ?_⟩
  rw [State.frameByte_eq]

/-- Settles O26: E_COMPLETE is selected at BIDX = PLEN + 2. -/
theorem eCompleteEndsInDone : Obligations.ECompleteEndsInDone := by
  unfold Obligations.ECompleteEndsInDone
  intro s hstate hbidx
  exact (exec_eComplete_iff s _).2 ⟨⟨hstate, hbidx⟩, rfl⟩

/-- Settles O27: E_TRUNC is selected where the grid is exhausted in either way. -/
theorem eTruncEndsInDoneWithTrunc : Obligations.ETruncEndsInDoneWithTrunc := by
  unfold Obligations.ETruncEndsInDoneWithTrunc
  intro s hstate hexhausted
  exact (exec_eTrunc_iff s _).2 ⟨⟨hstate, s.encExhausted_iff.2 hexhausted⟩, rfl⟩

end Sys2Proof.Machine
end


section
/-! The micro-operations of DEC (42_decoder.md R171 to R174): where R104 selects one, its whole effect. -/

namespace Sys2Proof.Machine

/-! ### The operands of the micro-operations -/

/-- DEC's grid is exhausted exactly where R43 says so. -/
theorem State.decExhausted_iff (s : State) : s.decExhausted = true ↔ s.width = 0#16 ∨ s.dec.cur.row = s.height :=
  decide_eq_true_iff

/-- DEC's grid is not exhausted where it has columns and the cursor's row is one of its rows. -/
theorem State.decExhausted_eq_false_iff (s : State) :
    s.decExhausted = false ↔ s.width ≠ 0#16 ∧ s.dec.cur.row ≠ s.height := by
  rw [← Bool.not_eq_true, s.decExhausted_iff, not_or]

/-- D_READ's bit count goes from below 8 to at most 8, which 4 bits hold. -/
theorem toNat_bitcnt_add_one {n : BitVec 4} (h : n.toNat < 8) : (n + 1#4).toNat = n.toNat + 1 :=
  BitVec.toNat_add_of_lt (show n.toNat + 1 < 2 ^ 4 by omega)

/-- A state whose OMEM is another's with one element written: that element reads as written, every other one as
before. -/
theorem State.omemRead_of_store {s t : State} {a : Nat} {v : Byte} (hm : t.omem = Mem.store s.omem a v)
    (he : t.epoch = s.epoch) : t.omemRead a = v ∧ ∀ b, b ≠ a → t.omemRead b = s.omemRead b := by
  have hread (b : Nat) : t.omemRead b = if b = a then v else s.omemRead b :=
    (State.omemRead_congr (s := s.omemWrite a v) hm he b).trans (s.omemRead_omemWrite a b v)
  exact ⟨(hread a).trans (if_pos rfl), fun b hb => (hread b).trans (if_neg hb)⟩

/-! ### Scanning -/

/-- Settles O29: D_READ is selected, the bit it shifts in is the channel's LSB, and the bit count does not wrap. -/
theorem dReadShiftsOneBitIn : Obligations.DReadShiftsOneBitIn := by
  unfold Obligations.DReadShiftsOneBitIn
  intro s hstate hbitcnt hwidth hrow
  have hselected : decGuard s .dRead := ⟨hstate, hbitcnt, s.decExhausted_eq_false_iff.2 ⟨hwidth, hrow⟩⟩
  refine ⟨_, (exec_dRead_iff s _).2 ⟨hselected, rfl⟩, ?shifted, toNat_bitcnt_add_one hbitcnt, rfl, rfl⟩
  case shifted => rw [BitVec.and_one_eq_setWidth_ofBool_getLsbD, Cursor.addr]

/-- Settles O30: D_MATCH is selected where the window holds the marker. -/
theorem dMatchStopsAtTheMarker : Obligations.DMatchStopsAtTheMarker := by
  unfold Obligations.DMatchStopsAtTheMarker
  intro s hstate hbitcnt hholdv hhold hsr
  exact (exec_dMatch_iff s _).2 ⟨⟨hstate, hbitcnt, hholdv, hhold, hsr⟩, rfl⟩

/-- Settles O31: D_BYTE is selected where the window holds no marker; with a byte held it writes the one element
OMEM[OIDX]. -/
theorem dByteDeliversTheHeldByte : Obligations.DByteDeliversTheHeldByte := by
  unfold Obligations.DByteDeliversTheHeldByte
  intro s hstate hbitcnt hmarker
  have hselected : decGuard s .dByte := ⟨hstate, hbitcnt, hmarker⟩
  refine ⟨fun hempty => ?empty, fun hheld => ?held⟩
  case empty => exact (exec_dByte_iff_of_empty hempty _).2 ⟨hselected, rfl⟩
  case held =>
    refine ⟨_, (exec_dByte_iff_of_held hheld _).2 ⟨hselected, rfl⟩, ?_⟩
    exact and_assoc.1 ⟨State.omemRead_of_store rfl rfl, rfl⟩

/-! ### The tail rule -/

/-- Settles O32: D_FINISH is selected where the grid is exhausted within a byte; the three cases are what is held. -/
theorem dFinishAppliesTheTailRule : Obligations.DFinishAppliesTheTailRule := by
  unfold Obligations.DFinishAppliesTheTailRule
  intro s hstate hbitcnt hexhausted
  have hselected : decGuard s .dFinish := ⟨hstate, hbitcnt, s.decExhausted_iff.2 hexhausted⟩
  refine ⟨fun hheld htail => ?delivered, fun hheld htail => ?dropped, fun hempty => ?empty⟩
  case delivered =>
    refine ⟨_, (exec_dFinish_iff_of_delivered hheld htail _).2 ⟨hselected, rfl⟩, ?_⟩
    exact and_assoc.1 ⟨State.omemRead_of_store rfl rfl, rfl⟩
  case dropped => exact (exec_dFinish_iff_of_dropped hheld htail _).2 ⟨hselected, rfl⟩
  case empty => exact (exec_dFinish_iff_of_empty hempty _).2 ⟨hselected, rfl⟩

end Sys2Proof.Machine
end

section
/-! The register transactions (43_host_commands.md R201, R202): what a refused read answers, and the transactions while
no unit is BUSY. -/

namespace Sys2Proof.Machine

/-! ### What a refused read answers -/

/-- A refused 32-bit read records the fault, answers a free value (log 4) and changes nothing else. -/
theorem State.refuseWord_eq (s : State) (c : Cause) (a : Nat) (sp : Space) :
    s.refuseWord c a sp = { s.raise c a sp.code with
      outbox := .word (Config.refusedWord s.freeIx) :: s.outbox, freeIx := s.freeIx + 1 } := by
  rw [State.refuseWord, State.replyWord, s.raise_outbox]

/-- A refused 8-bit read records the fault, answers a free value (log 4) and changes nothing else. -/
theorem State.refuseByte_eq (s : State) (c : Cause) (a : Nat) (sp : Space) :
    s.refuseByte c a sp = { s.raise c a sp.code with
      outbox := .byte (Config.refusedByte s.freeIx) :: s.outbox, freeIx := s.freeIx + 1 } := by
  rw [State.refuseByte, State.replyByte, s.raise_outbox]

/-- An operation that refuses a 32-bit read answers some word. -/
theorem exec_answers_of_refuseWord {i : Instr} {s : State} {c : Cause} {a : Nat} {sp : Space}
    (h : exec i s = .next (s.refuseWord c a sp)) :
    ∃ v, exec i s =
      .next { s.raise c a sp.code with outbox := .word v :: s.outbox, freeIx := s.freeIx + 1 } :=
  ⟨_, h.trans (congrArg _ (s.refuseWord_eq c a sp))⟩

/-- An operation that refuses an 8-bit read answers some byte. -/
theorem exec_answers_of_refuseByte {i : Instr} {s : State} {c : Cause} {a : Nat} {sp : Space}
    (h : exec i s = .next (s.refuseByte c a sp)) :
    ∃ v, exec i s =
      .next { s.raise c a sp.code with outbox := .byte v :: s.outbox, freeIx := s.freeIx + 1 } :=
  ⟨_, h.trans (congrArg _ (s.refuseByte_eq c a sp))⟩

/-! ### Register numbers -/

/-- There is no host register with number 9 or above (10_state.md R21). -/
theorem State.regValue_eq_none (s : State) {r : Nat} (hr : 9 ≤ r) : s.regValue r = none := by
  obtain ⟨n, rfl⟩ := Nat.exists_eq_add_of_le' hr
  rfl

/-! ### Register transactions while no unit is BUSY -/

section Resting
variable {s : State} (hb : s.busy = false)
include hb

theorem exec_regRead_of_range {r : Nat} (hr : 9 ≤ r) :
    exec (.regRead r) s = .next (s.refuseWord .addrRange r .reg) := by
  simp [exec, execRegRead, hb, s.regValue_eq_none hr]

theorem exec_regWrite_of_range {r : Nat} (hr : 9 ≤ r) (v : Word) :
    exec (.regWrite r v) s = .next (s.raise .addrRange r Space.reg.code) := by
  have h0 : r ≠ 0 := by omega
  simp [exec, execRegWrite, hb, h0, hr]

theorem exec_regWrite_width (v : Word) : exec (.regWrite 2 v) s = .next { s with width := v.setWidth 16 } := by
  simp [exec, execRegWrite, hb]

theorem exec_regWrite_height (v : Word) : exec (.regWrite 3 v) s = .next { s with height := v.setWidth 16 } := by
  simp [exec, execRegWrite, hb]

theorem exec_regWrite_plen (v : Word) : exec (.regWrite 4 v) s = .next { s with plen := v } := by
  simp [exec, execRegWrite, hb]

end Resting

/-- Settles O3: BUSY and range refuse the read; each of the nine registers is answered by its value. -/
theorem regReadAnswersTheRegister : Obligations.RegReadAnswersTheRegister := by
  unfold Obligations.RegReadAnswersTheRegister
  intro r s
  refine ⟨fun hb hr => ?busy, fun hb hr => ?range, fun hallowed hr => ?answered⟩
  case busy => exact exec_answers_of_refuseWord (exec_regRead_of_busy hb hr)
  case range => exact exec_answers_of_refuseWord (exec_regRead_of_range hb hr)
  case answered => interval_cases r <;> exact exec_regRead_of_regValue hallowed rfl

/-- Settles O4: CMD is dispatched, BUSY and range refuse the write, and of the rest WIDTH, HEIGHT and PLEN store it. -/
theorem regWriteStoresTheRegister : Obligations.RegWriteStoresTheRegister := by
  unfold Obligations.RegWriteStoresTheRegister
  intro r v s
  have hlow : v.extractLsb' 0 16 = v.setWidth 16 := (BitVec.setWidth_eq_extractLsb' (by decide)).symm
  rw [hlow]
  refine ⟨?cmd, fun hr hb => exec_regWrite_of_busy hb hr v, fun hr hb => exec_regWrite_of_range hb hr v, ?width,
    ?height, ?plen, fun hr hb => exec_regWrite_of_readOnly hb hr v⟩
  case cmd => rintro rfl; exact exec_regWrite_cmd s v
  case width => rintro rfl hb; exact exec_regWrite_width hb v
  case height => rintro rfl hb; exact exec_regWrite_height hb v
  case plen => rintro rfl hb; exact exec_regWrite_plen hb v

end Sys2Proof.Machine
end

section
/-! The commands (43_host_commands.md R203 to R207): each line of dispatch as an equation, and what the command it
reaches does. -/

namespace Sys2Proof.Machine

/-! ### The lines of command dispatch -/

/-- The first line: while a unit is BUSY every command is refused. -/
theorem State.dispatch_of_busy {s : State} (hb : s.busy = true) (v : Word) : s.dispatch v = s.raise .cmdBusy 0 v := by
  simp [State.dispatch, hb]

section Accepted
variable {s : State} (hb : s.busy = false)
include hb

/-- CLEAR is accepted whether or not a fault is latched. -/
theorem State.dispatch_clear : s.dispatch Command.clear.word = s.clearAll := by
  simp [State.dispatch, hb, decodeCommand_word]

/-- NOP changes nothing whether or not a fault is latched. -/
theorem State.dispatch_nop : s.dispatch Command.nop.word = s := by
  simp [State.dispatch, hb, decodeCommand_word]

/-- With a fault latched nothing but CLEAR has an effect. -/
theorem State.dispatch_of_latched {v : Word} (hv : v ≠ Command.clear.word) (hc : s.cause ≠ 0#4) :
    s.dispatch v = s := by
  have herr : s.err = true := s.err_iff.2 hc
  cases hd : decodeCommand v with
  | error e => simp [State.dispatch, hb, hd, herr]
  | ok c =>
    obtain rfl := (decodeCommand_eq_ok_iff v c).1 hd
    cases c with
    | clear => exact absurd rfl hv
    | nop => exact State.dispatch_nop hb
    | encStart => simp [State.dispatch, hb, hd, herr]
    | decStart => simp [State.dispatch, hb, hd, herr]

theorem State.dispatch_encStart (hc : s.cause = 0#4) : s.dispatch Command.encStart.word = s.startEnc := by
  simp [State.dispatch, hb, decodeCommand_word, State.err, hc]

theorem State.dispatch_decStart (hc : s.cause = 0#4) : s.dispatch Command.decStart.word = s.startDec := by
  simp [State.dispatch, hb, decodeCommand_word, State.err, hc]

end Accepted

/-- A word above the last command word is reserved (30_encoding.md R101). -/
theorem ne_command_word_of_gt {v : Word} (hv : 0x00000003#32 < v) (c : Command) : v ≠ c.word := by
  rintro rfl
  cases c <;> exact absurd hv (by decide)

/-- Settles O5: a write to CMD is dispatched, and each case is one line of dispatch. -/
theorem dispatchDecidesInOrder : Obligations.DispatchDecidesInOrder := by
  unfold Obligations.DispatchDecidesInOrder
  intro v s
  simp only [exec_regWrite_cmd, Host.Outcome.next.injEq]
  refine ⟨fun hb => State.dispatch_of_busy hb v, ?clear, fun hb hv hc => State.dispatch_of_latched hb hv hc, ?nop,
    ?encStart, ?decStart, fun hb hc hv => State.dispatch_of_reserved hb hc (ne_command_word_of_gt hv)⟩
  case clear => rintro hb rfl; exact State.dispatch_clear hb
  case nop => rintro hb - rfl; exact State.dispatch_nop hb
  case encStart => rintro hb hc rfl; exact State.dispatch_encStart hb hc
  case decStart => rintro hb hc rfl; exact State.dispatch_decStart hb hc

/-! ### The four commands -/

/-- A command is the dispatch of its word (10_state.md R22, log 14). -/
theorem exec_command (c : Command) (s : State) : exec c.instr s = .next (s.dispatch c.word) := by
  cases c <;> rfl

/-- Settles O7: NOP is dispatched, and its word has no effect but the refusal while BUSY. -/
theorem nopChangesNothing : Obligations.NopChangesNothing := by
  unfold Obligations.NopChangesNothing
  intro s
  exact ⟨fun hb => (exec_command .nop s).trans (congrArg _ (State.dispatch_nop hb)),
    fun hb => (exec_command .nop s).trans (congrArg _ (State.dispatch_of_busy hb _))⟩

/-- Settles O8: ENC_START reaches `startEnc`, which starts ENC or records CONFIG_RANGE, no fault being latched. -/
theorem encStartPutsEncInValidate : Obligations.EncStartPutsEncInValidate := by
  unfold Obligations.EncStartPutsEncInValidate
  intro s hb hc
  have hexec : exec .encStart s = .next s.startEnc :=
    (exec_command .encStart s).trans (congrArg _ (State.dispatch_encStart hb hc))
  refine ⟨fun hn hp => ?fits, fun hrange => ?range⟩
  case fits => rw [hexec, State.startEnc_of_fits hn hp]
  case range =>
    rw [hexec, State.startEnc_of_range hrange, State.raise_of_clear hc]
    rfl

/-- Settles O9: DEC_START reaches `startDec`, which starts DEC or records CONFIG_RANGE, no fault being latched. -/
theorem decStartPutsDecInScanning : Obligations.DecStartPutsDecInScanning := by
  unfold Obligations.DecStartPutsDecInScanning
  intro s hb hc
  have hexec : exec .decStart s = .next s.startDec :=
    (exec_command .decStart s).trans (congrArg _ (State.dispatch_decStart hb hc))
  refine ⟨fun hn => ?fits, fun hrange => ?range⟩
  case fits => rw [hexec, State.startDec_of_fits hn]
  case range =>
    rw [hexec, State.startDec_of_range hrange, State.raise_of_clear hc]
    rfl

/-- Settles O10: CLEAR reaches `clearAll`, which is the effect R207 lists. -/
theorem clearReturnsUnitsToIdle : Obligations.ClearReturnsUnitsToIdle := by
  unfold Obligations.ClearReturnsUnitsToIdle
  intro s hb
  exact (exec_command .clear s).trans (congrArg _ (State.dispatch_clear hb))

end Sys2Proof.Machine
end

section
/-! The memory transactions while no unit is BUSY (43_host_commands.md R209 to R213): refused outside the space, else
one element is read or written. -/

namespace Sys2Proof.Machine

/-! ### Addresses outside and inside the space -/

section Resting
variable {s : State} (hb : s.busy = false)
include hb

theorem State.accessFault_of_lt {a size : Nat} (ha : a < size) : s.accessFault a size = none :=
  (s.accessFault_eq_none_iff a size).2 ⟨hb, ha⟩

section Gmem
variable {a : Nat}

theorem exec_gRead_of_range (ha : s.cfg.gmax.val ≤ a) :
    exec (.gRead a) s = .next (s.refuseByte .addrRange a .gmem) := by
  simp [exec, execGRead, State.accessFault_of_range hb ha]

theorem exec_gRead_of_lt (ha : a < s.cfg.gmax.val) : exec (.gRead a) s = .next (s.replyByte (s.gmemRead a)) := by
  simp [exec, execGRead, State.accessFault_of_lt hb ha]

theorem exec_gWrite_of_range (ha : s.cfg.gmax.val ≤ a) (v : Byte) :
    exec (.gWrite a v) s = .next (s.raise .addrRange a Space.gmem.code) := by
  simp [exec, execGWrite, State.accessFault_of_range hb ha]

theorem exec_gWrite_of_lt (ha : a < s.cfg.gmax.val) (v : Byte) : exec (.gWrite a v) s = .next (s.gmemWrite a v) := by
  simp [exec, execGWrite, State.accessFault_of_lt hb ha]

end Gmem

section Pmem
variable {a : Nat}

theorem exec_pRead_of_range (ha : s.cfg.pmax.val ≤ a) :
    exec (.pRead a) s = .next (s.refuseWord .addrRange a .pmem) := by
  simp [exec, execPRead, State.accessFault_of_range hb ha]

theorem exec_pRead_of_lt (ha : a < s.cfg.pmax.val) : exec (.pRead a) s = .next (s.replyWord (s.pmemRead a)) := by
  simp [exec, execPRead, State.accessFault_of_lt hb ha]

theorem exec_pWrite_of_range (ha : s.cfg.pmax.val ≤ a) (v : Word) :
    exec (.pWrite a v) s = .next (s.raise .addrRange a Space.pmem.code) := by
  simp [exec, execPWrite, State.accessFault_of_range hb ha]

theorem exec_pWrite_of_lt (ha : a < s.cfg.pmax.val) (v : Word) : exec (.pWrite a v) s = .next (s.pmemWrite a v) := by
  simp [exec, execPWrite, State.accessFault_of_lt hb ha]

end Pmem

section Omem
variable {a : Nat}

theorem exec_oRead_of_range (ha : s.cfg.omax ≤ a) :
    exec (.oRead a) s = .next (s.refuseByte .addrRange a .omem) := by
  simp [exec, execORead, State.accessFault_of_range hb ha]

theorem exec_oRead_of_lt (ha : a < s.cfg.omax) : exec (.oRead a) s = .next (s.replyByte (s.omemRead a)) := by
  simp [exec, execORead, State.accessFault_of_lt hb ha]

end Omem
end Resting

/-! ### The grid memory -/

/-- Settles O11: BUSY and range refuse the read, else the element is answered. -/
theorem gReadReturnsTheElement : Obligations.GReadReturnsTheElement := by
  unfold Obligations.GReadReturnsTheElement
  intro a s
  exact ⟨fun hb => exec_answers_of_refuseByte (exec_gRead_of_busy hb a),
    fun hb ha => exec_answers_of_refuseByte (exec_gRead_of_range hb ha),
    fun hb ha => exec_gRead_of_lt hb ha⟩

/-- Settles O12: BUSY and range refuse the write, else it is `gmemWrite`, whose reads `gmemRead_gmemWrite` gives. -/
theorem gWriteStoresTheElement : Obligations.GWriteStoresTheElement := by
  unfold Obligations.GWriteStoresTheElement
  intro a v s
  refine ⟨fun hb => exec_gWrite_of_busy hb a v, fun hb ha => exec_gWrite_of_range hb ha v, fun hb ha => ?stored⟩
  case stored =>
    exact ⟨s.gmemWrite a v, exec_gWrite_of_lt hb ha v, rfl, (s.gmemRead_gmemWrite a a v).trans (if_pos rfl),
      fun b hne => (s.gmemRead_gmemWrite a b v).trans (if_neg hne)⟩

/-! ### The payload memory -/

/-- Settles O13: BUSY and range refuse the read, else the element is answered. -/
theorem pReadReturnsTheElement : Obligations.PReadReturnsTheElement := by
  unfold Obligations.PReadReturnsTheElement
  intro a s
  exact ⟨fun hb => exec_answers_of_refuseWord (exec_pRead_of_busy hb a),
    fun hb ha => exec_answers_of_refuseWord (exec_pRead_of_range hb ha),
    fun hb ha => exec_pRead_of_lt hb ha⟩

/-- Settles O14: BUSY and range refuse the write, else it is `pmemWrite`, whose reads `pmemRead_pmemWrite` gives. -/
theorem pWriteStoresTheElement : Obligations.PWriteStoresTheElement := by
  unfold Obligations.PWriteStoresTheElement
  intro a v s
  refine ⟨fun hb => exec_pWrite_of_busy hb a v, fun hb ha => exec_pWrite_of_range hb ha v, fun hb ha => ?stored⟩
  case stored =>
    exact ⟨s.pmemWrite a v, exec_pWrite_of_lt hb ha v, rfl, (s.pmemRead_pmemWrite a a v).trans (if_pos rfl),
      fun b hne => (s.pmemRead_pmemWrite a b v).trans (if_neg hne)⟩

/-! ### The output memory -/

/-- Settles O15: BUSY and range (OMAX, which is GMAX / 8) refuse the read, else the element is answered. -/
theorem oReadReturnsTheElement : Obligations.OReadReturnsTheElement := by
  unfold Obligations.OReadReturnsTheElement
  intro a s
  exact ⟨fun hb => exec_answers_of_refuseByte (exec_oRead_of_busy hb a),
    fun hb ha => exec_answers_of_refuseByte (exec_oRead_of_range hb ha),
    fun hb ha => exec_oRead_of_lt hb ha⟩

end Sys2Proof.Machine
end

section
/-! The fault registers (60_exceptions.md R252, R258, R259): which operations leave them alone, and what an access outside
its space records. -/

namespace Sys2Proof.Machine

/-- FADDR, 32 bits wide, holds the low 32 bits of the address it is given (R252, R258). -/
theorem ofNat_low32 (a : Nat) : BitVec.ofNat 32 (a % 2 ^ 32) = BitVec.ofNat 32 a :=
  BitVec.eq_of_toNat_eq (Nat.mod_mod a (2 ^ 32))

/-! ### What keeps the fault registers -/

/-- The micro-operations other than E_VFAIL touch no fault register, latched or not (R259). -/
theorem exec_ustep_sameFault {i : Instr} {s t : State} (hi : hostOp i = false) (hne : i ≠ .eVfail)
    (h : exec i s = .next t) : s.SameFault t := by
  cases i
  case eVfail => exact absurd rfl hne
  case eVchk => obtain ⟨-, rfl⟩ := (exec_eVchk_iff s t).1 h; exact ⟨rfl, rfl, rfl⟩
  case eVend => obtain ⟨-, rfl⟩ := (exec_eVend_iff s t).1 h; exact ⟨rfl, rfl, rfl⟩
  case eFetch => obtain ⟨-, rfl⟩ := (exec_eFetch_iff s t).1 h; exact ⟨rfl, rfl, rfl⟩
  case eComplete => obtain ⟨-, rfl⟩ := (exec_eComplete_iff s t).1 h; exact ⟨rfl, rfl, rfl⟩
  case eTrunc => obtain ⟨-, rfl⟩ := (exec_eTrunc_iff s t).1 h; exact ⟨rfl, rfl, rfl⟩
  case eWrite => obtain ⟨-, rfl⟩ := (exec_eWrite_iff s t).1 h; exact ⟨rfl, rfl, rfl⟩
  case dRead => obtain ⟨-, rfl⟩ := (exec_dRead_iff s t).1 h; exact ⟨rfl, rfl, rfl⟩
  case dMatch => obtain ⟨-, rfl⟩ := (exec_dMatch_iff s t).1 h; exact ⟨rfl, rfl, rfl⟩
  case dByte =>
    cases hheld : s.dec.holdv with
    | false => obtain ⟨-, rfl⟩ := (exec_dByte_iff_of_empty hheld t).1 h; exact ⟨rfl, rfl, rfl⟩
    | true => obtain ⟨-, rfl⟩ := (exec_dByte_iff_of_held hheld t).1 h; exact ⟨rfl, rfl, rfl⟩
  case dFinish =>
    cases hheld : s.dec.holdv with
    | false => obtain ⟨-, rfl⟩ := (exec_dFinish_iff_of_empty hheld t).1 h; exact ⟨rfl, rfl, rfl⟩
    | true =>
      by_cases htail : s.dec.hold = markerHi
      · obtain ⟨-, rfl⟩ := (exec_dFinish_iff_of_dropped hheld htail t).1 h; exact ⟨rfl, rfl, rfl⟩
      · obtain ⟨-, rfl⟩ := (exec_dFinish_iff_of_delivered hheld htail t).1 h; exact ⟨rfl, rfl, rfl⟩
  all_goals cases hi

section Latched
variable {s t : State} (hc : s.cause ≠ 0#4)
include hc

/-- E_VFAIL keeps a latched fault: what it raises is not recorded (log 12). -/
theorem exec_eVfail_sameFault_of_latched (h : exec .eVfail s = .next t) : s.SameFault t := by
  obtain ⟨-, rfl⟩ := (exec_eVfail_iff s t).1 h
  rw [State.raise_of_latched hc]
  exact ⟨rfl, rfl, rfl⟩

/-- A word other than CLEAR's, written to CMD, has no effect at all while a fault is latched. -/
theorem State.dispatch_eq_self_of_latched {v : Word} (hv : v ≠ Command.clear.word) : s.dispatch v = s := by
  cases hb : s.busy with
  | true => rw [State.dispatch_of_busy hb, State.raise_of_latched hc]
  | false => exact State.dispatch_of_latched hb hv hc

/-- The host keeps a latched fault unless it clears. -/
theorem exec_host_sameFault_of_latched {i : Instr} (hi : hostOp i = true) (hclears : clears i = false)
    (h : exec i s = .next t) : s.SameFault t := by
  rcases exec_host_cases hi h with ⟨v, rfl, hword⟩ | hnoted | ⟨-, hwrite⟩
  · have hv : v ≠ Command.clear.word := by
      rintro rfl
      have hnot : ¬(i = .clear ∨ i = .regWrite 0 Command.clear.word) := of_decide_eq_false hclears
      rcases hword with rfl | ⟨-, hw⟩ | ⟨-, hw⟩ | ⟨-, hw⟩ | ⟨rfl, -⟩
      · exact hnot (.inr rfl)
      · exact absurd hw (by decide)
      · exact absurd hw (by decide)
      · exact absurd hw (by decide)
      · exact hnot (.inl rfl)
    rw [State.dispatch_eq_self_of_latched hc hv]
    exact ⟨rfl, rfl, rfl⟩
  · exact hnoted.sameFault hc
  · rcases hwrite with ⟨v, -, rfl⟩ | ⟨v, -, rfl⟩ | ⟨v, -, rfl⟩ | ⟨r, v, -, rfl⟩ | ⟨a, v, -, -, rfl⟩ | ⟨a, v, -, -, rfl⟩
    all_goals exact ⟨rfl, rfl, rfl⟩

end Latched

/-- Settles O18: it is the frame of the micro-operations. -/
theorem onlyVfailRaisesInAUnit : Obligations.OnlyVfailRaisesInAUnit := by
  unfold Obligations.OnlyVfailRaisesInAUnit
  intro i s t hi hne h
  exact exec_ustep_sameFault hi hne h

/-- Settles O16: a latched fault is kept by the host's operations, by E_VFAIL and by the other micro-operations. -/
theorem firstFaultSticks : Obligations.FirstFaultSticks := by
  unfold Obligations.FirstFaultSticks
  refine ⟨fun c a d s => ⟨fun hc => ?recorded, fun hc => State.raise_of_latched hc c a d⟩,
    fun i s t h hc hclears => ?kept⟩
  case recorded => rw [State.raise_of_clear hc, ofNat_low32]
  case kept =>
    cases hi : hostOp i with
    | true => exact exec_host_sameFault_of_latched hc hi hclears h
    | false =>
      by_cases hvfail : i = .eVfail
      · subst hvfail
        exact exec_eVfail_sameFault_of_latched hc h
      · exact exec_ustep_sameFault hi hvfail h

/-! ### Accesses outside their space -/

/-- What the host has been answered once `i` completes: a read adds one element of its space's width, any other
operation nothing. -/
def AnswersReadsOnly (i : Instr) (before after : List Reply) : Prop :=
  match i with
  | .regRead _ | .pRead _ => ∃ v, after = .word v :: before
  | .gRead _ | .oRead _ => ∃ v, after = .byte v :: before
  | _ => after = before

/-- `i` accesses element `a` of the space with code `d`, which has no such element (R258). -/
def State.AccessesOutside (s : State) (i : Instr) (a : Nat) (d : Word) : Prop :=
  (i = .regRead a ∨ ∃ v, i = .regWrite a v) ∧ d = Space.reg.code ∧ 9 ≤ a ∨
  (i = .gRead a ∨ ∃ v, i = .gWrite a v) ∧ d = Space.gmem.code ∧ s.cfg.gmax.val ≤ a ∨
  (i = .pRead a ∨ ∃ v, i = .pWrite a v) ∧ d = Space.pmem.code ∧ s.cfg.pmax.val ≤ a ∨
  i = .oRead a ∧ d = Space.omem.code ∧ s.cfg.omax ≤ a

/-- Every access outside its space does one thing: it raises ADDR_RANGE, and answers if it is a read. -/
theorem exec_of_accessesOutside {i : Instr} {s : State} {a : Nat} {d : Word} (hb : s.busy = false)
    (h : s.AccessesOutside i a d) :
    ∃ o n, exec i s = .next { s.raise .addrRange a d with outbox := o, freeIx := n } ∧
      AnswersReadsOnly i s.outbox o := by
  rcases h with ⟨rfl | ⟨v, rfl⟩, rfl, ha⟩ | ⟨rfl | ⟨v, rfl⟩, rfl, ha⟩ | ⟨rfl | ⟨v, rfl⟩, rfl, ha⟩ | ⟨rfl, rfl, ha⟩
  · obtain ⟨v, hread⟩ := exec_answers_of_refuseWord (exec_regRead_of_range hb ha)
    exact ⟨_, _, hread, v, rfl⟩
  · exact ⟨_, _, exec_regWrite_of_range hb ha v, s.raise_outbox _ _ _⟩
  · obtain ⟨v, hread⟩ := exec_answers_of_refuseByte (exec_gRead_of_range hb ha)
    exact ⟨_, _, hread, v, rfl⟩
  · exact ⟨_, _, exec_gWrite_of_range hb ha v, s.raise_outbox _ _ _⟩
  · obtain ⟨v, hread⟩ := exec_answers_of_refuseWord (exec_pRead_of_range hb ha)
    exact ⟨_, _, hread, v, rfl⟩
  · exact ⟨_, _, exec_pWrite_of_range hb ha v, s.raise_outbox _ _ _⟩
  · obtain ⟨v, hread⟩ := exec_answers_of_refuseByte (exec_oRead_of_range hb ha)
    exact ⟨_, _, hread, v, rfl⟩

/-- Settles O20: the access raises ADDR_RANGE and answers (`exec_of_accessesOutside`), so its frame and a latched fault
are those of noting. -/
theorem outOfRangeIsRefused : Obligations.OutOfRangeIsRefused := by
  unfold Obligations.OutOfRangeIsRefused
  intro i s a space hb hout
  obtain ⟨o, n, hexec, hanswers⟩ := exec_of_accessesOutside hb hout
  have hnoted : s.Noted { s.raise .addrRange a space with outbox := o, freeIx := n } :=
    ⟨_, .inr ⟨_, _, _, rfl⟩, o, n, rfl⟩
  obtain ⟨henc, hdec, hcfg, hres, hmem, hinbox⟩ := hnoted.frame
  refine ⟨_, hexec, henc, hdec, hcfg, hres, hmem, ?word, ?byte, ?write, hinbox, fun hc => ?recorded, hnoted.sameFault⟩
  case word => rintro (rfl | rfl) <;> exact hanswers
  case byte => rintro (rfl | rfl) <;> exact hanswers
  case write => rintro v w (rfl | rfl | rfl) <;> exact hanswers
  case recorded =>
    rw [ofNat_low32]
    exact State.raise_records hc .addrRange a space

end Sys2Proof.Machine
end

section
/-! The laws of the reference functions (40_reference_functions.md, 44_properties.md R230 to R243): bits and bytes, the
channels of an encoded grid, the whole bytes read back from it, and the scan for the marker. -/

namespace Sys2Proof.Ref

/-! ### Bits and bytes -/

@[simp] theorem length_bits8 (b : Byte) : (bits8 b).length = 8 := rfl

theorem byte8_bits (b : Byte) :
    byte8 (b.getLsbD 7) (b.getLsbD 6) (b.getLsbD 5) (b.getLsbD 4) (b.getLsbD 3) (b.getLsbD 2) (b.getLsbD 1)
      (b.getLsbD 0) = b := by
  revert b
  decide

theorem bits8_byte8 (q0 q1 q2 q3 q4 q5 q6 q7 : Bool) :
    bits8 (byte8 q0 q1 q2 q3 q4 q5 q6 q7) = [q0, q1, q2, q3, q4, q5, q6, q7] := by
  revert q0 q1 q2 q3 q4 q5 q6 q7
  decide

/-- The bits of a byte in front are read back as that byte. -/
theorem groups_bits8_append (b : Byte) (l : List Bool) : groups (bits8 b ++ l) = b :: groups l :=
  congrArg (· :: groups l) (byte8_bits b)

theorem groups_flatMap_bits8 (l : List Byte) : groups (l.flatMap bits8) = l := by
  induction l with
  | nil => rfl
  | cons b l ih => rw [List.flatMap_cons, groups_bits8_append, ih]

theorem length_flatMap_bits8 (l : List Byte) : (l.flatMap bits8).length = 8 * l.length := by
  induction l with
  | nil => rfl
  | cons b l ih => rw [List.flatMap_cons, List.length_append, ih, length_bits8, List.length_cons]; omega

/-- Bit `p` of a byte sequence, most significant first, is bit `7 - p mod 8` of byte `p / 8`. -/
theorem getElem?_flatMap_bits8 (l : List Byte) (p : Nat) :
    (l.flatMap bits8)[p]? = l[p / 8]?.map fun b => b.getLsbD (7 - p % 8) := by
  induction l generalizing p with
  | nil => simp
  | cons b l ih =>
    rw [List.flatMap_cons]
    by_cases hp : p < 8
    · rw [List.getElem?_append_left (by simpa using hp), Nat.div_eq_of_lt hp, Nat.mod_eq_of_lt hp]
      interval_cases p <;> rfl
    · obtain ⟨q, rfl⟩ := Nat.exists_eq_add_of_le' (Nat.le_of_not_lt hp)
      rw [List.getElem?_append_right (by simp), length_bits8, Nat.add_sub_cancel, ih,
        Nat.add_div_right _ (by decide), Nat.add_mod_right, List.getElem?_cons_succ]

/-- A list of fewer than eight bits has no whole byte. -/
theorem groups_of_length_lt {l : List Bool} (h : l.length < 8) : groups l = [] := by
  unfold groups
  split
  · simp only [List.length_cons] at h; omega
  · rfl

theorem exists_bits8_append {l : List Bool} (h : 8 ≤ l.length) : ∃ b rest, l = bits8 b ++ rest := by
  match l, h with
  | q0 :: q1 :: q2 :: q3 :: q4 :: q5 :: q6 :: q7 :: rest, _ =>
    exact ⟨byte8 q0 q1 q2 q3 q4 q5 q6 q7, rest, by rw [bits8_byte8]; rfl⟩

theorem length_groups (l : List Bool) : (groups l).length = l.length / 8 := by
  induction hn : l.length using Nat.strong_induction_on generalizing l with
  | _ n ih =>
    by_cases h : l.length < 8
    · rw [groups_of_length_lt h, ← hn, Nat.div_eq_of_lt h]; rfl
    · obtain ⟨b, rest, rfl⟩ := exists_bits8_append (Nat.le_of_not_lt h)
      rw [List.length_append, length_bits8] at hn
      rw [groups_bits8_append, List.length_cons, ih rest.length (by omega) rest rfl]
      omega

/-- The first `k` whole bytes are those of the first `8 * k` bits. -/
theorem take_groups (k : Nat) (l : List Bool) : (groups l).take k = groups (l.take (8 * k)) := by
  induction k generalizing l with
  | zero => rfl
  | succ k ih =>
    by_cases h : l.length < 8
    · rw [groups_of_length_lt h, List.take_nil, List.take_of_length_le (by omega), groups_of_length_lt h]
    · obtain ⟨b, rest, rfl⟩ := exists_bits8_append (Nat.le_of_not_lt h)
      have htake : (bits8 b ++ rest).take (8 * (k + 1)) = bits8 b ++ rest.take (8 * k) := by
        rw [List.take_append, List.take_of_length_le (by rw [length_bits8]; omega), length_bits8]
        rfl
      rw [htake, groups_bits8_append, groups_bits8_append, List.take_succ_cons, ih]

/-- Settles O50: both directions are finite checks, over the bytes and over the eight bits. -/
theorem bitsAndBytesAreInverse : Obligations.BitsAndBytesAreInverse := by
  unfold Obligations.BitsAndBytesAreInverse
  exact ⟨fun b => groups_bits8_append b [], bits8_byte8⟩

/-! ### One channel -/

theorem getLsbD_zero_setLsb (v : Byte) (b : Bool) : (setLsb v b).getLsbD 0 = b := by
  revert v b
  decide

theorem setLsb_setLsb (v : Byte) (b c : Bool) : setLsb (setLsb v b) c = setLsb v c := by
  revert v b c
  decide

theorem extractLsb'_setLsb (v : Byte) (b : Bool) : (setLsb v b).extractLsb' 1 7 = v.extractLsb' 1 7 := by
  revert v b
  decide

/-! ### The channels of an encoded grid -/

@[simp] theorem length_embed (cs : List Byte) (bs : List Bool) : (embed cs bs).length = cs.length := by
  induction cs, bs using embed.induct with
  | case1 bs => rfl
  | case2 c cs => rfl
  | case3 c cs b bs ih => simp [embed, ih]

/-- A channel that meets a bit carries it in its LSB; a channel beyond the bits is left as it is (R126). -/
theorem getElem?_embed (cs : List Byte) (bs : List Bool) (p : Nat) :
    (embed cs bs)[p]? = cs[p]?.map fun c => (bs[p]?.map (setLsb c)).getD c := by
  induction cs, bs using embed.induct generalizing p with
  | case1 bs => simp [embed]
  | case2 c cs => simp [embed]
  | case3 c cs b bs ih =>
    cases p with
    | zero => simp [embed]
    | succ p => simpa [embed] using ih p

theorem embed_embed (cs : List Byte) (bs : List Bool) : embed (embed cs bs) bs = embed cs bs := by
  induction cs, bs using embed.induct with
  | case1 bs => simp [embed]
  | case2 c cs => simp [embed]
  | case3 c cs b bs ih => simp [embed, setLsb_setLsb, ih]

theorem length_frame (t : List Byte) : (frame t).length = t.length + 2 := by simp [frame]

theorem length_bitstream (t : List Byte) : (bitstream t).length = 8 * t.length + 16 := by
  rw [bitstream, length_flatMap_bits8, length_frame]; omega

theorem getElem?_bitstream (t : List Byte) (p : Nat) :
    (bitstream t)[p]? = (frame t)[p / 8]?.map fun b => b.getLsbD (7 - p % 8) := getElem?_flatMap_bits8 _ _

/-- Channel `p` of an encoded grid. -/
theorem getElem?_encodeGrid (g : Grid) (t : List Byte) (p : Nat) :
    (encodeGrid g t).ch[p]? = g.ch[p]?.map fun c => ((bitstream t)[p]?.map (setLsb c)).getD c := getElem?_embed _ _ _

@[simp] theorem length_encodeGrid (g : Grid) (t : List Byte) : (encodeGrid g t).ch.length = g.ch.length :=
  length_embed _ _

/-- Beyond the bitstream no channel changes. -/
theorem getElem?_encodeGrid_of_le {g : Grid} {t : List Byte} {p : Nat} (hp : 8 * t.length + 16 ≤ p) :
    (encodeGrid g t).ch[p]? = g.ch[p]? := by
  have hnone : (bitstream t)[p]? = none := List.getElem?_eq_none (by rw [length_bitstream]; exact hp)
  rw [getElem?_encodeGrid, hnone]
  exact Option.map_id'

/-- Settles O52: a channel changes by `setLsb` at most, and only below the length of the bitstream. -/
theorem encodingAltersOnlyLsbsOfThePrefix : Obligations.EncodingAltersOnlyLsbsOfThePrefix := by
  unfold Obligations.EncodingAltersOnlyLsbsOfThePrefix
  intro g t
  refine ⟨rfl, rfl, length_encodeGrid g t, fun p c hc => ?upperBits, fun p hp => getElem?_encodeGrid_of_le hp⟩
  case upperBits =>
    rw [getElem?_encodeGrid, hc]
    refine ⟨_, rfl, ?_⟩
    cases (bitstream t)[p]? with
    | none => rfl
    | some b => exact extractLsb'_setLsb c b

/-- Settles O53: bit `p` of the bitstream is bit `7 - p mod 8` of byte `p / 8` of the frame. -/
theorem encodingPlacesEachBit : Obligations.EncodingPlacesEachBit := by
  unfold Obligations.EncodingPlacesEachBit
  intro g t p c hp hc
  obtain ⟨b, hbyte⟩ : ∃ b, (frame t)[p / 8]? = some b :=
    ⟨_, List.getElem?_eq_getElem (by rw [length_frame]; omega)⟩
  refine ⟨b, hbyte, ?_⟩
  rw [getElem?_encodeGrid, getElem?_bitstream, hbyte, hc]
  rfl

/-! ### The whole bytes read back from an encoded grid -/

theorem length_wholeBytes (g : Grid) : (groups (lsbs g)).length = g.ch.length / 8 := by
  rw [length_groups, lsbs, List.length_map]

/-- The LSBs of an encoded grid begin with the bitstream, as far as both go. -/
theorem take_lsbs_encodeGrid {g : Grid} {t : List Byte} {n : Nat} (hg : n ≤ g.ch.length)
    (ht : n ≤ 8 * t.length + 16) : (lsbs (encodeGrid g t)).take n = (bitstream t).take n := by
  refine List.ext_getElem? fun p => ?_
  by_cases hp : p < n
  · obtain ⟨c, hc⟩ : ∃ c, g.ch[p]? = some c := ⟨_, List.getElem?_eq_getElem (by omega)⟩
    obtain ⟨b, hb⟩ : ∃ b, (bitstream t)[p]? = some b :=
      ⟨_, List.getElem?_eq_getElem (by rw [length_bitstream]; omega)⟩
    rw [List.getElem?_take_of_lt hp, List.getElem?_take_of_lt hp, lsbs, List.getElem?_map, getElem?_encodeGrid, hc, hb]
    exact congrArg some (getLsbD_zero_setLsb _ _)
  · rw [List.getElem?_take_eq_none (Nat.le_of_not_lt hp), List.getElem?_take_eq_none (Nat.le_of_not_lt hp)]

/-- The whole bytes of an encoded grid begin with the framed payload, as far as both go. -/
theorem take_groups_encodeGrid {g : Grid} {t : List Byte} {k : Nat} (hg : k ≤ g.ch.length / 8)
    (ht : k ≤ t.length + 2) : (groups (lsbs (encodeGrid g t))).take k = (frame t).take k := by
  rw [take_groups, take_lsbs_encodeGrid (by omega) (by omega), ← take_groups, bitstream, groups_flatMap_bits8]

/-! ### The scan -/

theorem scan_cons_cons (b c : Byte) (l : List Byte) :
    scan (b :: c :: l) = if b = markerHi ∧ c = markerLo then [] else b :: scan (c :: l) := by rw [scan]

theorem scanFound_cons_cons (b c : Byte) (l : List Byte) :
    scanFound (b :: c :: l) = if b = markerHi ∧ c = markerLo then true else scanFound (c :: l) := by rw [scanFound]

/-- The scan returns the bytes it has read, up to where it ends. -/
theorem scan_prefix (l : List Byte) : scan l <+: l := by
  induction l with
  | nil => exact List.prefix_rfl
  | cons b l ih =>
    cases l with
    | nil =>
      by_cases hb : b = markerHi
      · simp [scan, hb]
      · simp [scan, hb]
    | cons c l =>
      rw [scan_cons_cons]
      split
      · exact List.nil_prefix
      · exact (List.prefix_cons_inj b).2 ih

/-- With the marker found, the scan returns without the two marker bytes. -/
theorem length_scan_of_found {l : List Byte} (h : scanFound l = true) : (scan l).length + 2 ≤ l.length := by
  induction l with
  | nil => cases h
  | cons b l ih =>
    cases l with
    | nil => cases h
    | cons c l =>
      rw [scanFound_cons_cons] at h
      rw [scan_cons_cons]
      split_ifs at h ⊢
      · simp
      · simpa using ih h

theorem hasMarker_cons_cons_iff (b c : Byte) (l : List Byte) :
    hasMarker (b :: c :: l) = true ↔ b = markerHi ∧ c = markerLo ∨ hasMarker (c :: l) = true := by
  simp [hasMarker]

/-- After a marker the scan reads nothing. -/
theorem scan_append_of_hasMarker {u : List Byte} (h : hasMarker u = true) (v : List Byte) : scan (u ++ v) = scan u := by
  induction u with
  | nil => cases h
  | cons b u ih =>
    cases u with
    | nil => cases h
    | cons c u =>
      rw [hasMarker_cons_cons_iff] at h
      rw [List.cons_append, List.cons_append, scan_cons_cons, scan_cons_cons]
      split_ifs with hbc
      · rfl
      · exact congrArg (b :: ·) (ih (h.resolve_left hbc))

/-- Over bytes without a marker followed by 0xFF the scan goes on to that 0xFF. -/
theorem scan_append_markerHi {u : List Byte} (h : hasMarker u = false) (v : List Byte) :
    scan (u ++ markerHi :: v) = u ++ scan (markerHi :: v) := by
  induction u with
  | nil => rfl
  | cons b u ih =>
    cases u with
    | nil =>
      rw [List.singleton_append, scan_cons_cons, if_neg (fun hbc => absurd hbc.2 (by decide))]
      rfl
    | cons c u =>
      rw [← Bool.not_eq_true, hasMarker_cons_cons_iff, not_or, Bool.not_eq_true] at h
      rw [List.cons_append, List.cons_append, scan_cons_cons, if_neg h.1]
      exact congrArg (b :: ·) (ih h.2)

/-- The scan stops at the first marker (R130). -/
theorem scan_append_marker {u : List Byte} (h : hasMarker u = false) (v : List Byte) :
    scan (u ++ markerHi :: markerLo :: v) = u := by
  rw [scan_append_markerHi h, scan_cons_cons, if_pos ⟨rfl, rfl⟩, List.append_nil]

/-- The tail rule (R130): half a marker at the end is dropped. -/
theorem scan_append_half_marker {u : List Byte} (h : hasMarker u = false) : scan (u ++ [markerHi]) = u := by
  rw [scan_append_markerHi h]
  exact List.append_nil u

/-! ### The laws of encoding and decoding -/

/-- With room for `k` bytes of the frame, the decode scans those bytes and more. -/
theorem decodeGrid_encodeGrid_of_le {g : Grid} {t : List Byte} {k : Nat} (hg : k ≤ g.ch.length / 8)
    (ht : k ≤ t.length + 2) : ∃ v, decodeGrid (encodeGrid g t) = scan ((frame t).take k ++ v) := by
  refine ⟨(groups (lsbs (encodeGrid g t))).drop k, ?_⟩
  rw [← take_groups_encodeGrid hg ht, List.take_append_drop, decodeGrid]

/-- Where the grid ends before the whole frame, the decode scans what fits. -/
theorem decodeGrid_encodeGrid_of_short {g : Grid} {t : List Byte} (h : g.ch.length / 8 ≤ t.length + 2) :
    decodeGrid (encodeGrid g t) = scan ((frame t).take (g.ch.length / 8)) := by
  have hlen : (groups (lsbs (encodeGrid g t))).length ≤ g.ch.length / 8 := by
    rw [length_wholeBytes, length_encodeGrid]
  rw [← take_groups_encodeGrid le_rfl h, List.take_of_length_le hlen, decodeGrid]

theorem frame_append (u v : List Byte) : frame (u ++ v) = u ++ frame v := List.append_assoc _ _ _

theorem take_frame_of_le {t : List Byte} {k : Nat} (h : k ≤ t.length) : (frame t).take k = t.take k :=
  List.take_append_of_le_length h

theorem take_frame_succ (t : List Byte) : (frame t).take (t.length + 1) = t ++ [markerHi] := by
  rw [frame, List.take_append]; simp

/-- The decode stops at the first 0xFF 0xFE that is embedded whole (R239). -/
theorem decodeGrid_encodeGrid_of_marker {g : Grid} {t u v : List Byte} (hf : frame t = u ++ markerHi :: markerLo :: v)
    (hu : hasMarker u = false) (hg : u.length + 2 ≤ g.ch.length / 8) : decodeGrid (encodeGrid g t) = u := by
  have hlen := congrArg List.length hf
  rw [length_frame, List.length_append, List.length_cons, List.length_cons] at hlen
  obtain ⟨w, hw⟩ := decodeGrid_encodeGrid_of_le (t := t) hg (by omega)
  have htake : (frame t).take (u.length + 2) = u ++ [markerHi, markerLo] := by
    rw [hf, List.take_append]; simp
  rw [hw, htake, List.append_assoc]
  exact scan_append_marker hu w

/-- Settles O51: the whole bytes read back are the payload and 0xFF, which the tail rule drops, or the payload and the
marker. -/
theorem roundTripWithoutInnerMarker : Obligations.RoundTripWithoutInnerMarker := by
  unfold Obligations.RoundTripWithoutInnerMarker
  intro g t hm hlen
  by_cases hhalf : g.ch.length / 8 = t.length + 1
  · rw [decodeGrid_encodeGrid_of_short (by omega), hhalf, take_frame_succ, scan_append_half_marker hm]
  · exact decodeGrid_encodeGrid_of_marker rfl hm (by omega)

/-- Settles O54: what fits is the beginning of the payload, or the payload and a part of the marker; a marker inside the
payload cuts the decode in the payload. -/
theorem truncatedDecodeIsAPrefix : Obligations.TruncatedDecodeIsAPrefix := by
  unfold Obligations.TruncatedDecodeIsAPrefix
  intro g t
  by_cases hshort : g.ch.length / 8 ≤ t.length
  case pos =>
    rw [decodeGrid_encodeGrid_of_short (by omega), take_frame_of_le hshort]
    exact (scan_prefix _).trans (List.take_prefix _ _)
  case neg =>
    cases hm : hasMarker t with
    | false => rw [roundTripWithoutInnerMarker g t hm (by omega)]
    | true =>
      obtain ⟨v, hv⟩ := decodeGrid_encodeGrid_of_le (g := g) (t := t) (k := t.length) (by omega) (by omega)
      rw [hv, take_frame_of_le le_rfl, List.take_length, scan_append_of_hasMarker hm]
      exact scan_prefix t

/-- Settles O55: the decode is the beginning of the empty payload, and the bitstream is the 16 bits of the marker. -/
theorem emptyPayloadDecodesEmpty : Obligations.EmptyPayloadDecodesEmpty := by
  unfold Obligations.EmptyPayloadDecodesEmpty
  intro g
  exact ⟨List.prefix_nil.1 (truncatedDecodeIsAPrefix g []), fun p hp => getElem?_encodeGrid_of_le hp⟩

/-- Settles O56: the first marker of the frame is the one after `u`. -/
theorem innerMarkerCutsTheDecode : Obligations.InnerMarkerCutsTheDecode := by
  unfold Obligations.InnerMarkerCutsTheDecode
  intro g u v hu hlen
  have hf : frame (u ++ [markerHi, markerLo] ++ v) = u ++ markerHi :: markerLo :: frame v := by
    rw [List.append_assoc, frame_append]; rfl
  exact decodeGrid_encodeGrid_of_marker hf hu (by omega)

/-- Settles O57: embedding the same bits again changes nothing; the round trip does not look at the grid's old LSBs. -/
theorem encodingTwiceIsEncodingOnce : Obligations.EncodingTwiceIsEncodingOnce := by
  unfold Obligations.EncodingTwiceIsEncodingOnce
  refine ⟨fun g t => congrArg (Grid.mk g.width g.height) (embed_embed g.ch (bitstream t)), fun g t₁ t₂ hm hfits => ?_⟩
  have hlen : 8 * t₂.length + 16 ≤ g.ch.length := of_decide_eq_true hfits
  exact roundTripWithoutInnerMarker _ t₂ hm (by rw [length_encodeGrid]; omega)

/-- Settles O58: the scan is no longer than the whole bytes, and two shorter with the marker found. -/
theorem decodeLengthIsBounded : Obligations.DecodeLengthIsBounded := by
  unfold Obligations.DecodeLengthIsBounded
  intro g
  rw [← length_wholeBytes]
  exact ⟨(scan_prefix _).length_le, length_scan_of_found⟩

end Sys2Proof.Ref
end

section
/-! Decoding and encoding (30_encoding.md, 43_host_commands.md R200): each is the other's inverse, and the requests that
decode are the well-formed ones. -/

namespace Sys2Proof

/-- The four space codes (30_encoding.md R105). -/
theorem space_code_cases (c : BitVec 2) : c = 0#2 ∨ c = 1#2 ∨ c = 2#2 ∨ c = 3#2 := by
  revert c
  decide

/-- An element that fits a byte is what it was after it went through one. -/
theorem setWidth_word_byte {d : Word} (h : ¬255 < d.toNat) : (d.setWidth 8).setWidth 32 = d := by
  apply BitVec.eq_of_toNat_eq
  simp only [BitVec.toNat_setWidth]
  omega

theorem decodeRequest_gWrite (a : Nat) (v : Byte) :
    decodeRequest { space := 1#2, write := true, addr := a, data := v.setWidth 32 } = .ok (.gWrite a v) := by
  have hv : v.toNat % 4294967296 ≤ 255 := by omega
  have hfits : ({ space := 1#2, write := true, addr := a, data := v.setWidth 32 } : Request).dataFits = true := by
    simpa [Request.dataFits] using hv
  simp [decodeRequest, Request.spaceWritable, hfits, Request.readIsBare]

/-- Every operation is read back from its encoded form. -/
theorem decode_encode (i : Instr) : decode (encode i) = .ok i := by
  cases i with
  | gWrite a v => exact decodeRequest_gWrite a v
  | _ => rfl

theorem encode_command (c : Command) : encode c.instr = .cmd c.word := by cases c <;> rfl

/-- A command word that decodes is the one the encoder writes. -/
theorem encode_of_decode_cmd {w : Word} {i : Instr} (h : decode (.cmd w) = .ok i) : encode i = .cmd w := by
  cases hc : decodeCommand w with
  | error e => simp [decode, hc, Except.map] at h
  | ok c =>
    obtain rfl : c.instr = i := by simpa [decode, hc, Except.map] using h
    rw [encode_command, (Machine.decodeCommand_eq_ok_iff w c).1 hc]

/-- The three checks on a request, as the decoder makes them. -/
theorem Request.wellFormed_iff (q : Request) :
    q.wellFormed = true ↔ q.spaceWritable = true ∧ q.dataFits = true ∧ q.readIsBare = true := by
  simp [Request.wellFormed, and_assoc]

theorem wellFormed_of_decodeRequest {q : Request} {i : Instr} (h : decodeRequest q = .ok i) : q.wellFormed = true := by
  rw [q.wellFormed_iff]
  unfold decodeRequest at h
  split_ifs at h with hspace hdata hread <;> simp_all

/-- A well-formed request is the encoded form of an operation: of a read, or of a write to a space but OMEM. -/
theorem exists_encode_of_wellFormed {q : Request} (h : q.wellFormed = true) : ∃ i, encode i = .xact q := by
  obtain ⟨hspace, hdata, hread⟩ := q.wellFormed_iff.1 h
  obtain ⟨sp, w, a, d⟩ := q
  cases w with
  | false =>
    obtain rfl : d = 0#32 := by simpa [Request.readIsBare] using hread
    rcases space_code_cases sp with rfl | rfl | rfl | rfl
    · exact ⟨.regRead a, rfl⟩
    · exact ⟨.gRead a, rfl⟩
    · exact ⟨.pRead a, rfl⟩
    · exact ⟨.oRead a, rfl⟩
  | true =>
    rcases space_code_cases sp with rfl | rfl | rfl | rfl
    · exact ⟨.regWrite a d, rfl⟩
    · have hfits : ¬255 < d.toNat := by simpa [Request.dataFits] using hdata
      exact ⟨.gWrite a (d.setWidth 8), by rw [encode, setWidth_word_byte hfits]⟩
    · exact ⟨.pWrite a d, rfl⟩
    · simp [Request.spaceWritable] at hspace

/-- A request that decodes is the one the encoder writes: it is well formed, so it is some operation's, and that is the
one it decodes to. -/
theorem encode_of_decode_xact {q : Request} {i : Instr} (h : decode (.xact q) = .ok i) : encode i = .xact q := by
  obtain ⟨j, hj⟩ := exists_encode_of_wellFormed (wellFormed_of_decodeRequest h)
  have hij : decode (.xact q) = .ok j := hj ▸ decode_encode j
  obtain rfl : i = j := Except.ok.inj (h.symm.trans hij)
  exact hj

/-- Settles O38: the encoder's forms are read back, and what decodes is an encoder's form. -/
theorem decodeAndEncodeAgree : Obligations.DecodeAndEncodeAgree := by
  unfold Obligations.DecodeAndEncodeAgree
  refine ⟨decode_encode, fun w i h => encode_of_decode_cmd h, fun q i h => encode_of_decode_xact h,
    fun q => ⟨fun h => ?decodes, fun ⟨i, h⟩ => wellFormed_of_decodeRequest h⟩⟩
  case decodes =>
    obtain ⟨i, hi⟩ := exists_encode_of_wellFormed h
    exact ⟨i, hi ▸ decode_encode i⟩

/-- Settles O36: the words and requests are closed. -/
theorem specWordsDecode : Obligations.SpecWordsDecode := by
  unfold Obligations.SpecWordsDecode
  decide

end Sys2Proof
end

section
/-! The moves of the two units: what a micro-operation that answers a next state does, as one case per effect
(41_encoder.md R141 to R147, 42_decoder.md R171 to R174), and what every move leaves alone. -/

namespace Sys2Proof.Machine

/-! ### The moves -/

/-- A move of ENC: one case per micro-operation, with its row of R104. -/
inductive EncMove (s : State) : Instr → State → Prop
  | vchk (row : encGuard s .eVchk) : EncMove s .eVchk { s with enc := { s.enc with vidx := s.enc.vidx + 1#32 } }
  | vfail (row : encGuard s .eVfail) : EncMove s .eVfail
      { s.raise .payloadEncoding s.enc.vidx.toNat (s.pmemRead s.enc.vidx.toNat) with
        enc := { s.enc with state := .error } }
  | vend (row : encGuard s .eVend) : EncMove s .eVend { s with enc := { s.enc with state := .fetch } }
  | fetch (row : encGuard s .eFetch) : EncMove s .eFetch
      { s with enc := { s.enc with sr := s.frameByte s.enc.bidx.toNat, state := .write } }
  | complete (row : encGuard s .eComplete) : EncMove s .eComplete { s with enc := { s.enc with state := .done } }
  | trunc (row : encGuard s .eTrunc) : EncMove s .eTrunc
      { s with enc := { s.enc with state := .done }, trunc := true }
  | write (row : encGuard s .eWrite) : EncMove s .eWrite
      { s.gmemWrite (s.enc.cur.addr s.width)
          (Ref.setLsb (s.gmemRead (s.enc.cur.addr s.width)) (s.enc.sr.getLsbD 7)) with
        enc := s.enc.afterWrite s.width }

/-- A move of DEC: one case per effect, D_BYTE and D_FINISH being told apart by what is held. -/
inductive DecMove (s : State) : Instr → State → Prop
  | read (row : decGuard s .dRead) : DecMove s .dRead
      { s with
        dec :=
          { s.dec with
            sr := (s.dec.sr <<< 1) ||| (BitVec.ofBool ((s.gmemRead (s.dec.cur.addr s.width)).getLsbD 0)).setWidth 8
            bitcnt := s.dec.bitcnt + 1#4
            cur := s.dec.cur.advance s.width } }
  | found (row : decGuard s .dMatch) : DecMove s .dMatch
      { s with mfound := true, olen := s.dec.oidx, dec := { s.dec with state := .done } }
  | firstByte (row : decGuard s .dByte) (empty : s.dec.holdv = false) : DecMove s .dByte
      { s with dec := { s.dec with hold := s.dec.sr, holdv := true, bitcnt := 0#4 } }
  | nextByte (row : decGuard s .dByte) (held : s.dec.holdv = true) : DecMove s .dByte
      { s.omemWrite s.dec.oidx.toNat s.dec.hold with
        dec := { s.dec with oidx := s.dec.oidx + 1#32, hold := s.dec.sr, holdv := true, bitcnt := 0#4 } }
  | finishEmpty (row : decGuard s .dFinish) (empty : s.dec.holdv = false) : DecMove s .dFinish
      { s with olen := s.dec.oidx, dec := { s.dec with state := .done } }
  | finishDropped (row : decGuard s .dFinish) (held : s.dec.holdv = true) (tail : s.dec.hold = markerHi) :
      DecMove s .dFinish { s with olen := s.dec.oidx, taildrop := true, dec := { s.dec with state := .done } }
  | finishDelivered (row : decGuard s .dFinish) (held : s.dec.holdv = true) (tail : s.dec.hold ≠ markerHi) :
      DecMove s .dFinish
        { s.omemWrite s.dec.oidx.toNat s.dec.hold with
          olen := s.dec.oidx + 1#32
          dec := { s.dec with oidx := s.dec.oidx + 1#32, state := .done } }

/-! ### The moves are what `exec` does -/

/-- What a micro-operation does is a move of its unit. -/
theorem exec_ustep_cases {i : Instr} {s t : State} (hi : hostOp i = false) (h : exec i s = .next t) :
    EncMove s i t ∨ DecMove s i t := by
  cases i
  case eVchk => obtain ⟨row, rfl⟩ := (exec_eVchk_iff s t).1 h; exact .inl (.vchk row)
  case eVfail => obtain ⟨row, rfl⟩ := (exec_eVfail_iff s t).1 h; exact .inl (.vfail row)
  case eVend => obtain ⟨row, rfl⟩ := (exec_eVend_iff s t).1 h; exact .inl (.vend row)
  case eFetch => obtain ⟨row, rfl⟩ := (exec_eFetch_iff s t).1 h; exact .inl (.fetch row)
  case eComplete => obtain ⟨row, rfl⟩ := (exec_eComplete_iff s t).1 h; exact .inl (.complete row)
  case eTrunc => obtain ⟨row, rfl⟩ := (exec_eTrunc_iff s t).1 h; exact .inl (.trunc row)
  case eWrite => obtain ⟨row, rfl⟩ := (exec_eWrite_iff s t).1 h; exact .inl (.write row)
  case dRead => obtain ⟨row, rfl⟩ := (exec_dRead_iff s t).1 h; exact .inr (.read row)
  case dMatch => obtain ⟨row, rfl⟩ := (exec_dMatch_iff s t).1 h; exact .inr (.found row)
  case dByte =>
    cases held : s.dec.holdv with
    | false => obtain ⟨row, rfl⟩ := (exec_dByte_iff_of_empty held t).1 h; exact .inr (.firstByte row held)
    | true => obtain ⟨row, rfl⟩ := (exec_dByte_iff_of_held held t).1 h; exact .inr (.nextByte row held)
  case dFinish =>
    cases held : s.dec.holdv with
    | false => obtain ⟨row, rfl⟩ := (exec_dFinish_iff_of_empty held t).1 h; exact .inr (.finishEmpty row held)
    | true =>
      by_cases tail : s.dec.hold = markerHi
      · obtain ⟨row, rfl⟩ := (exec_dFinish_iff_of_dropped held tail t).1 h; exact .inr (.finishDropped row held tail)
      · obtain ⟨row, rfl⟩ := (exec_dFinish_iff_of_delivered held tail t).1 h
        exact .inr (.finishDelivered row held tail)
  all_goals cases hi

theorem EncMove.exec {i : Instr} {s t : State} (h : EncMove s i t) : exec i s = .next t := by
  cases h with
  | vchk row => exact (exec_eVchk_iff _ _).2 ⟨row, rfl⟩
  | vfail row => exact (exec_eVfail_iff _ _).2 ⟨row, rfl⟩
  | vend row => exact (exec_eVend_iff _ _).2 ⟨row, rfl⟩
  | fetch row => exact (exec_eFetch_iff _ _).2 ⟨row, rfl⟩
  | complete row => exact (exec_eComplete_iff _ _).2 ⟨row, rfl⟩
  | trunc row => exact (exec_eTrunc_iff _ _).2 ⟨row, rfl⟩
  | write row => exact (exec_eWrite_iff _ _).2 ⟨row, rfl⟩

theorem DecMove.exec {i : Instr} {s t : State} (h : DecMove s i t) : exec i s = .next t := by
  cases h with
  | read row => exact (exec_dRead_iff _ _).2 ⟨row, rfl⟩
  | found row => exact (exec_dMatch_iff _ _).2 ⟨row, rfl⟩
  | firstByte row empty => exact (exec_dByte_iff_of_empty empty _).2 ⟨row, rfl⟩
  | nextByte row held => exact (exec_dByte_iff_of_held held _).2 ⟨row, rfl⟩
  | finishEmpty row empty => exact (exec_dFinish_iff_of_empty empty _).2 ⟨row, rfl⟩
  | finishDropped row held tail => exact (exec_dFinish_iff_of_dropped held tail _).2 ⟨row, rfl⟩
  | finishDelivered row held tail => exact (exec_dFinish_iff_of_delivered held tail _).2 ⟨row, rfl⟩

/-- A move is a micro-operation's. -/
theorem EncMove.hostOp_eq_false {i : Instr} {s t : State} (h : EncMove s i t) : hostOp i = false := by
  cases h <;> rfl

theorem DecMove.hostOp_eq_false {i : Instr} {s t : State} (h : DecMove s i t) : hostOp i = false := by
  cases h <;> rfl

theorem hostOp_of_encGuard {i : Instr} {s : State} (row : encGuard s i) : hostOp i = false := by
  cases i
  case eVchk | eVfail | eVend | eFetch | eComplete | eTrunc | eWrite => rfl
  all_goals exact row.elim

theorem hostOp_of_decGuard {i : Instr} {s : State} (row : decGuard s i) : hostOp i = false := by
  cases i
  case dRead | dMatch | dByte | dFinish => rfl
  all_goals exact row.elim

/-- In a row of ENC, what the micro-operation does is a move of ENC. -/
theorem EncMove.of_exec {i : Instr} {s t : State} (row : encGuard s i) (h : Machine.exec i s = .next t) :
    EncMove s i t :=
  (exec_ustep_cases (hostOp_of_encGuard row) h).resolve_right fun hd => by cases hd <;> exact row

/-- In a row of DEC, what the micro-operation does is a move of DEC. -/
theorem DecMove.of_exec {i : Instr} {s t : State} (row : decGuard s i) (h : Machine.exec i s = .next t) :
    DecMove s i t :=
  (exec_ustep_cases (hostOp_of_decGuard row) h).resolve_left fun he => by cases he <;> exact row

/-! ### What a move leaves alone -/

/-- A unit moves only while it runs. -/
theorem EncMove.running {i : Instr} {s t : State} (h : EncMove s i t) : s.enc.state.running = true := by
  rw [EncState.running_iff]
  cases h with
  | vchk row | vfail row | vend row => exact .inl row.1
  | fetch row | complete row => exact .inr (.inl row.1)
  | trunc row | write row => exact .inr (.inr row.1)

theorem DecMove.running {i : Instr} {s t : State} (h : DecMove s i t) : s.dec.state.running = true := by
  rw [DecState.running_iff]
  cases h with
  | read row | found row | firstByte row | nextByte row | finishEmpty row | finishDropped row | finishDelivered row =>
    exact row.1

/-- What no unit touches: the configuration, the payload memory, and the model's own fields. -/
structure State.SameRest (s t : State) : Prop where
  config : s.SameConfig t
  pmem : t.pmem = s.pmem
  host : s.SameHost t

theorem EncMove.sameRest {i : Instr} {s t : State} (h : EncMove s i t) : s.SameRest t := by
  cases h with
  | vfail =>
    exact ⟨⟨s.raise_cfg _ _ _, s.raise_width _ _ _, s.raise_height _ _ _, s.raise_plen _ _ _⟩, s.raise_pmem _ _ _,
      ⟨s.raise_inbox _ _ _, s.raise_outbox _ _ _, s.raise_epoch _ _ _, s.raise_freeIx _ _ _⟩⟩
  | _ => exact ⟨⟨rfl, rfl, rfl, rfl⟩, rfl, ⟨rfl, rfl, rfl, rfl⟩⟩

theorem DecMove.sameRest {i : Instr} {s t : State} (h : DecMove s i t) : s.SameRest t := by
  cases h <;> exact ⟨⟨rfl, rfl, rfl, rfl⟩, rfl, ⟨rfl, rfl, rfl, rfl⟩⟩

/-- ENC leaves DEC, its results and its memory alone. -/
theorem EncMove.dec_frame {i : Instr} {s t : State} (h : EncMove s i t) :
    t.dec = s.dec ∧ t.omem = s.omem ∧ t.olen = s.olen ∧ t.mfound = s.mfound ∧ t.taildrop = s.taildrop := by
  cases h with
  | vfail =>
    exact ⟨s.raise_dec _ _ _, s.raise_omem _ _ _, s.raise_olen _ _ _, s.raise_mfound _ _ _, s.raise_taildrop _ _ _⟩
  | _ => exact ⟨rfl, rfl, rfl, rfl, rfl⟩

/-- DEC leaves ENC, its result, the grid memory and the fault registers alone. -/
theorem DecMove.enc_frame {i : Instr} {s t : State} (h : DecMove s i t) :
    t.enc = s.enc ∧ t.gmem = s.gmem ∧ t.trunc = s.trunc ∧ s.SameFault t := by
  cases h <;> exact ⟨rfl, rfl, rfl, rfl, rfl, rfl⟩

end Sys2Proof.Machine
end

section
/-! Who does what: which operation starts a unit, writes a memory or records a fault, and what a run sees of the host
(20_memory.md R60, R70, 43_host_commands.md R208, 60_exceptions.md R250). -/

namespace Sys2Proof.Machine

/-! ### Starting a unit -/

/-- What a START does: it starts its unit, or raises CONFIG_RANGE. -/
theorem State.startEnc_cases (s : State) :
    (∃ d, s.startEnc = s.raise .configRange 0 d) ∨
    (s.channels ≤ s.cfg.gmax.val ∧ s.plen.toNat ≤ s.cfg.pmax.val ∧ s.startEnc = { s with
      enc := { EncUnit.reset with state := .validate }
      trunc := false }) := by
  by_cases h : s.cfg.gmax.val < s.channels ∨ s.cfg.pmax.val < s.plen.toNat
  · exact .inl ⟨_, State.startEnc_of_range h⟩
  · obtain ⟨hn, hp⟩ := not_or.1 h
    exact .inr ⟨not_lt.1 hn, not_lt.1 hp, State.startEnc_of_fits (not_lt.1 hn) (not_lt.1 hp)⟩

theorem State.startDec_cases (s : State) :
    (∃ d, s.startDec = s.raise .configRange 0 d) ∨
    (s.channels ≤ s.cfg.gmax.val ∧ s.startDec = { s with
      dec := { DecUnit.reset with state := .scanning }
      olen := 0#32
      mfound := false
      taildrop := false }) := by
  by_cases h : s.cfg.gmax.val < s.channels
  · exact .inl ⟨_, State.startDec_of_range h⟩
  · exact .inr ⟨not_lt.1 h, State.startDec_of_fits (not_lt.1 h)⟩

/-! ### Everything the host can bring about -/

/-- The effects of a transaction or command of the host, apart: noting (an answer or a recorded fault), and what is done
only while no unit is BUSY. -/
inductive HostMove (s : State) : Instr → State → Prop
  | noted {i : Instr} {t : State} (note : s.Noted t) : HostMove s i t
  | clear {i : Instr} (idle : s.busy = false) : HostMove s i s.clearAll
  | startEnc {i : Instr} (cmd : i = .encStart ∨ i = .regWrite 0 0x00000001#32) (idle : s.busy = false)
      (clean : s.cause = 0#4) (grid : s.channels ≤ s.cfg.gmax.val) (payload : s.plen.toNat ≤ s.cfg.pmax.val) :
      HostMove s i { s with enc := { EncUnit.reset with state := .validate }, trunc := false }
  | startDec {i : Instr} (cmd : i = .decStart ∨ i = .regWrite 0 0x00000002#32) (idle : s.busy = false)
      (clean : s.cause = 0#4) (grid : s.channels ≤ s.cfg.gmax.val) :
      HostMove s i { s with
        dec := { DecUnit.reset with state := .scanning }, olen := 0#32, mfound := false, taildrop := false }
  | configure {i : Instr} (idle : s.busy = false) (w h : BitVec 16) (l : Word) :
      HostMove s i { s with width := w, height := h, plen := l }
  | gWrite (idle : s.busy = false) {a : Nat} (inside : a < s.cfg.gmax.val) (v : Byte) :
      HostMove s (.gWrite a v) (s.gmemWrite a v)
  | pWrite (idle : s.busy = false) {a : Nat} (inside : a < s.cfg.pmax.val) (v : Word) :
      HostMove s (.pWrite a v) (s.pmemWrite a v)

/-- Nothing at all is noting too. -/
theorem State.noted_self (s : State) : s.Noted s := ⟨s, .inl rfl, s.outbox, s.freeIx, rfl⟩

/-- A write to CMD is one of the host's moves. -/
theorem HostMove.of_dispatch {i : Instr} (s : State) (v : Word)
    (henc : v = 1#32 → i = .encStart ∨ i = .regWrite 0 0x00000001#32)
    (hdec : v = 2#32 → i = .decStart ∨ i = .regWrite 0 0x00000002#32) : HostMove s i (s.dispatch v) := by
  rcases s.dispatch_cases v with ⟨-, h⟩ | ⟨hb, -, h⟩ | ⟨-, -, -, h⟩ | ⟨-, -, -, h⟩ | ⟨hb, hv, hc, h⟩ | ⟨hb, hv, hc, h⟩ |
    ⟨-, -, -, h⟩
  · rw [h]; exact .noted (s.noted_raise _ _ _)
  · rw [h]; exact .clear hb
  · rw [h]; exact .noted s.noted_self
  · rw [h]; exact .noted s.noted_self
  · rcases s.startEnc_cases with ⟨d, hs⟩ | ⟨hn, hp, hs⟩
    · rw [h, hs]; exact .noted (s.noted_raise _ _ _)
    · rw [h, hs]; exact .startEnc (henc hv) hb hc hn hp
  · rcases s.startDec_cases with ⟨d, hs⟩ | ⟨hn, hs⟩
    · rw [h, hs]; exact .noted (s.noted_raise _ _ _)
    · rw [h, hs]; exact .startDec (hdec hv) hb hc hn
  · rw [h]; exact .noted (s.noted_raise _ _ _)

/-- What a transaction or command does is one of the host's moves. -/
theorem HostMove.of_exec {i : Instr} {s t : State} (hi : hostOp i = true) (h : exec i s = .next t) :
    HostMove s i t := by
  rcases exec_host_cases hi h with ⟨v, rfl, hw⟩ | hn | ⟨hb, hw⟩
  · refine HostMove.of_dispatch s v ?enc ?dec
    case enc =>
      rintro rfl
      rcases hw with rfl | ⟨-, h⟩ | ⟨rfl, -⟩ | ⟨-, h⟩ | ⟨-, h⟩
      · exact .inr rfl
      · cases h
      · exact .inl rfl
      · cases h
      · cases h
    case dec =>
      rintro rfl
      rcases hw with rfl | ⟨-, h⟩ | ⟨-, h⟩ | ⟨rfl, -⟩ | ⟨-, h⟩
      · exact .inr rfl
      · cases h
      · cases h
      · exact .inl rfl
      · cases h
  · exact .noted hn
  · rcases hw with ⟨v, -, rfl⟩ | ⟨v, -, rfl⟩ | ⟨v, -, rfl⟩ | ⟨r, v, -, rfl⟩ | ⟨a, v, rfl, ha, rfl⟩ |
      ⟨a, v, rfl, ha, rfl⟩
    · exact .configure hb _ s.height s.plen
    · exact .configure hb s.width _ s.plen
    · exact .configure hb s.width s.height _
    · exact .noted t.noted_self
    · exact .gWrite hb ha v
    · exact .pWrite hb ha v

/-! ### Faults -/

/-- A noted fault changes the fault registers and the host's answers only. -/
theorem State.Noted.memories {s t : State} (h : s.Noted t) : t.gmem = s.gmem ∧ t.pmem = s.pmem ∧ t.omem = s.omem := by
  obtain ⟨_, _, _, _, _, rfl⟩ := h.eq
  exact ⟨rfl, rfl, rfl⟩

/-- The host records a fault only by noting it. -/
theorem HostMove.noted_of_raised {i : Instr} {s t : State} (h : HostMove s i t) (hs : s.cause = 0#4)
    (ht : t.cause ≠ 0#4) : s.Noted t := by
  cases h with
  | noted note => exact note
  | clear => exact absurd rfl ht
  | startEnc | startDec | configure | gWrite | pWrite => exact absurd hs ht

/-- Settles O17: the host records a fault by noting it; of the moves of the units only E_VFAIL's changes the fault
registers. -/
theorem faultLeavesMemoriesAndUnits : Obligations.FaultLeavesMemoriesAndUnits := by
  unfold Obligations.FaultLeavesMemoriesAndUnits
  intro i s t h hs ht
  cases hi : hostOp i with
  | true =>
    have hn : s.Noted t := (HostMove.of_exec hi h).noted_of_raised hs ht
    obtain ⟨hg, hp, ho⟩ := hn.memories
    obtain ⟨henc, hdec, hcfg, hres, -, -⟩ := hn.frame
    exact ⟨hg, hp, ho, hcfg, hres, hdec, fun _ => henc, fun hv => absurd (hv ▸ hi) (by decide)⟩
  | false =>
    rcases exec_ustep_cases hi h with he | hd
    · cases he with
      | vfail =>
        rw [State.raise_of_clear hs]
        exact ⟨rfl, rfl, rfl, ⟨rfl, rfl, rfl, rfl⟩, ⟨rfl, rfl, rfl, rfl⟩, rfl, fun hv => absurd rfl hv, fun _ => rfl⟩
      | vchk | vend | fetch | complete | trunc | write => exact absurd hs ht
    · obtain ⟨-, -, -, hcause, -, -⟩ := hd.enc_frame
      exact absurd (hcause.trans hs) ht

/-! ### Starting a unit, writing a memory -/

/-- Settles O42: of the host's moves only a START puts a unit in a running state, and a move of a unit is one of a
running unit. -/
theorem unitsStartOnlyByCommand : Obligations.UnitsStartOnlyByCommand := by
  unfold Obligations.UnitsStartOnlyByCommand
  intro i s t h
  cases hi : hostOp i with
  | true =>
    cases HostMove.of_exec hi h with
    | noted note =>
      obtain ⟨henc, hdec, -⟩ := note.frame
      rw [henc, hdec]
      exact ⟨fun h0 h1 => absurd (h0.symm.trans h1) (by decide), fun h0 h1 => absurd (h0.symm.trans h1) (by decide)⟩
    | clear => exact ⟨fun _ h1 => absurd h1 Bool.false_ne_true, fun _ h1 => absurd h1 Bool.false_ne_true⟩
    | startEnc cmd idle clean =>
      exact ⟨fun _ _ => ⟨cmd, idle, clean⟩, fun h0 h1 => absurd (h0.symm.trans h1) (by decide)⟩
    | startDec cmd idle clean =>
      exact ⟨fun h0 h1 => absurd (h0.symm.trans h1) (by decide), fun _ _ => ⟨cmd, idle, clean⟩⟩
    | configure | gWrite | pWrite =>
      exact ⟨fun h0 h1 => absurd (h0.symm.trans h1) (by decide), fun h0 h1 => absurd (h0.symm.trans h1) (by decide)⟩
  | false =>
    rcases exec_ustep_cases hi h with he | hd
    · obtain ⟨hdec, -⟩ := he.dec_frame
      rw [hdec]
      exact ⟨fun h0 => absurd (h0.symm.trans he.running) (by decide),
        fun h0 h1 => absurd (h0.symm.trans h1) (by decide)⟩
    · obtain ⟨henc, -⟩ := hd.enc_frame
      rw [henc]
      exact ⟨fun h0 h1 => absurd (h0.symm.trans h1) (by decide),
        fun h0 => absurd (h0.symm.trans hd.running) (by decide)⟩

/-- No move of ENC but E_WRITE's writes the grid memory. -/
theorem EncMove.gmem_eq {i : Instr} {s t : State} (h : EncMove s i t) : t.gmem = s.gmem ∨ i = .eWrite := by
  cases h with
  | vfail => exact .inl (s.raise_gmem _ _ _)
  | write => exact .inr rfl
  | vchk | vend | fetch | complete | trunc => exact .inl rfl

/-- No move of DEC but those of D_BYTE and D_FINISH writes the output memory. -/
theorem DecMove.omem_eq {i : Instr} {s t : State} (h : DecMove s i t) :
    t.omem = s.omem ∨ i = .dByte ∨ i = .dFinish := by
  cases h with
  | read | found => exact .inl rfl
  | firstByte | nextByte => exact .inr (.inl rfl)
  | finishEmpty | finishDropped | finishDelivered => exact .inr (.inr rfl)

/-- Settles O43: one memory is written by each move that writes any. -/
theorem eachMemoryHasItsWriters : Obligations.EachMemoryHasItsWriters := by
  unfold Obligations.EachMemoryHasItsWriters
  intro i s t h
  cases hi : hostOp i with
  | true =>
    cases HostMove.of_exec hi h with
    | noted note =>
      obtain ⟨_, _, _, _, _, rfl⟩ := note.eq
      exact ⟨rfl, rfl, fun hne => absurd rfl hne, fun hne => absurd rfl hne, fun hne => absurd rfl hne⟩
    | clear | startEnc | startDec | configure =>
      exact ⟨rfl, rfl, fun hne => absurd rfl hne, fun hne => absurd rfl hne, fun hne => absurd rfl hne⟩
    | gWrite =>
      exact ⟨rfl, rfl, fun _ => .inr ⟨_, _, rfl⟩, fun hne => absurd rfl hne, fun hne => absurd rfl hne⟩
    | pWrite =>
      exact ⟨rfl, rfl, fun hne => absurd rfl hne, fun _ => ⟨_, _, rfl⟩, fun hne => absurd rfl hne⟩
  | false =>
    rcases exec_ustep_cases hi h with he | hd
    · obtain ⟨⟨hcfg, -⟩, hp, -, -, hepoch, -⟩ := he.sameRest
      obtain ⟨-, ho, -⟩ := he.dec_frame
      exact ⟨hcfg, hepoch, fun hne => .inl (he.gmem_eq.resolve_left hne), fun hne => absurd hp hne,
        fun hne => absurd ho hne⟩
    · obtain ⟨⟨hcfg, -⟩, hp, -, -, hepoch, -⟩ := hd.sameRest
      obtain ⟨-, hg, -⟩ := hd.enc_frame
      exact ⟨hcfg, hepoch, fun hne => absurd hg hne, fun hne => absurd hp hne, hd.omem_eq.resolve_left⟩

/-! ### A run does not see the host -/

/-- E_VFAIL puts ENC in ERROR; of the rest it changes the fault registers at most. -/
theorem EncMove.vfail_raised {s : State} (row : encGuard s .eVfail) :
    ∃ c f d, EncMove s .eVfail
      { s with cause := c, faddr := f, fdata := d, enc := { s.enc with state := .error } } := by
  obtain ⟨c, f, d, h⟩ := s.raise_eq .payloadEncoding s.enc.vidx.toNat (s.pmemRead s.enc.vidx.toNat)
  have hmove := EncMove.vfail row
  rw [h] at hmove
  exact ⟨c, f, d, hmove⟩

section Noted
variable {i : Instr} {s t : State} (c : BitVec 4) (f d : Word) (o : List Reply) (n : Nat)

/-- ENC's move does not depend on the fault registers and the host's answers; E_VFAIL alone writes some of them. -/
theorem EncMove.of_notes (h : EncMove s i t) :
    ∃ c' f' d', EncMove { s with cause := c, faddr := f, fdata := d, outbox := o, freeIx := n } i
      { t with cause := c', faddr := f', fdata := d', outbox := o, freeIx := n } := by
  cases h with
  | vchk row => exact ⟨c, f, d, .vchk row⟩
  | vfail row =>
    obtain ⟨c₁, f₁, d₁, hs⟩ := s.raise_eq .payloadEncoding s.enc.vidx.toNat (s.pmemRead s.enc.vidx.toNat)
    obtain ⟨c', f', d', hmove⟩ :=
      EncMove.vfail_raised (s := { s with cause := c, faddr := f, fdata := d, outbox := o, freeIx := n }) row
    rw [hs]
    exact ⟨c', f', d', hmove⟩
  | vend row => exact ⟨c, f, d, .vend row⟩
  | fetch row => exact ⟨c, f, d, .fetch row⟩
  | complete row => exact ⟨c, f, d, .complete row⟩
  | trunc row => exact ⟨c, f, d, .trunc row⟩
  | write row => exact ⟨c, f, d, .write row⟩

/-- DEC's move neither depends on the fault registers and the host's answers nor changes them. -/
theorem DecMove.of_notes (h : DecMove s i t) :
    DecMove { s with cause := c, faddr := f, fdata := d, outbox := o, freeIx := n } i
      { t with cause := c, faddr := f, fdata := d, outbox := o, freeIx := n } := by
  cases h with
  | read row => exact .read row
  | found row => exact .found row
  | firstByte row empty => exact .firstByte row empty
  | nextByte row held => exact .nextByte row held
  | finishEmpty row empty => exact .finishEmpty row empty
  | finishDropped row held tail => exact .finishDropped row held tail
  | finishDelivered row held tail => exact .finishDelivered row held tail

end Noted

/-- Settles O45: while BUSY the host is only noted, and a move does not depend on what noting changes. -/
theorem hostCannotDisturbARun : Obligations.HostCannotDisturbARun := by
  unfold Obligations.HostCannotDisturbARun
  intro x i s u t hb hx hi hu ht
  obtain ⟨c, f, d, o, n, rfl⟩ := (exec_host_noted_of_busy hb hx hu).eq
  rcases exec_ustep_cases hi ht with he | hd
  · obtain ⟨c', f', d', he'⟩ := he.of_notes c f d o n
    exact ⟨_, he'.exec, rfl, rfl, ⟨rfl, rfl, rfl, rfl⟩, ⟨rfl, rfl, rfl, rfl⟩, State.sameMemories_of_eq rfl rfl rfl rfl⟩
  · have hd' := hd.of_notes c f d o n
    exact ⟨_, hd'.exec, rfl, rfl, ⟨rfl, rfl, rfl, rfl⟩, ⟨rfl, rfl, rfl, rfl⟩, State.sameMemories_of_eq rfl rfl rfl rfl⟩

end Sys2Proof.Machine
end

section
/-! Selection and stepping (30_encoding.md R104, 43_host_commands.md R215, 70_reset_and_hazards.md R280): a
micro-operation runs exactly in its row, and what a step does with the turn at hand. -/

namespace Sys2Proof.Machine

/-! ### Where a micro-operation runs -/

theorem EncMove.row {i : Instr} {s t : State} (h : EncMove s i t) : encGuard s i := by
  cases h with
  | vchk row | vfail row | vend row | fetch row | complete row | trunc row | write row => exact row

theorem DecMove.row {i : Instr} {s t : State} (h : DecMove s i t) : decGuard s i := by
  cases h with
  | read row | found row | firstByte row | nextByte row | finishEmpty row | finishDropped row | finishDelivered row =>
    exact row

/-- In its row every micro-operation has its effect. -/
theorem EncMove.exists_of_row {i : Instr} {s : State} (row : encGuard s i) : ∃ t, EncMove s i t := by
  cases i
  case eVchk => exact ⟨_, .vchk row⟩
  case eVfail => exact ⟨_, .vfail row⟩
  case eVend => exact ⟨_, .vend row⟩
  case eFetch => exact ⟨_, .fetch row⟩
  case eComplete => exact ⟨_, .complete row⟩
  case eTrunc => exact ⟨_, .trunc row⟩
  case eWrite => exact ⟨_, .write row⟩
  all_goals exact row.elim

theorem DecMove.exists_of_row {i : Instr} {s : State} (row : decGuard s i) : ∃ t, DecMove s i t := by
  cases i
  case dRead => exact ⟨_, .read row⟩
  case dMatch => exact ⟨_, .found row⟩
  case dByte =>
    cases held : s.dec.holdv with
    | false => exact ⟨_, .firstByte row held⟩
    | true => exact ⟨_, .nextByte row held⟩
  case dFinish =>
    cases held : s.dec.holdv with
    | false => exact ⟨_, .finishEmpty row held⟩
    | true =>
      by_cases tail : s.dec.hold = markerHi
      · exact ⟨_, .finishDropped row held tail⟩
      · exact ⟨_, .finishDelivered row held tail⟩
  all_goals exact row.elim

/-- A micro-operation answers a next state exactly in its row of R104. -/
theorem exec_ustep_completes_iff {i : Instr} (hi : hostOp i = false) (s : State) :
    (∃ t, exec i s = .next t) ↔ encGuard s i ∨ decGuard s i := by
  constructor
  · rintro ⟨t, h⟩
    exact (exec_ustep_cases hi h).imp EncMove.row DecMove.row
  · rintro (row | row)
    · exact (EncMove.exists_of_row row).imp fun _ => EncMove.exec
    · exact (DecMove.exists_of_row row).imp fun _ => DecMove.exec

theorem encStep_completes_or_notSelected (i : Instr) (f : State → State) (s : State) :
    (∃ t, encStep i f s = .next t) ∨ encStep i f s = .fault .notSelected := by
  unfold encStep
  split
  · exact .inl ⟨_, rfl⟩
  · exact .inr rfl

theorem decStep_completes_or_notSelected (i : Instr) (f : State → State) (s : State) :
    (∃ t, decStep i f s = .next t) ∨ decStep i f s = .fault .notSelected := by
  unfold decStep
  split
  · exact .inl ⟨_, rfl⟩
  · exact .inr rfl

/-- Elsewhere it answers the model's fault (log 9). -/
theorem exec_ustep_completes_or_notSelected {i : Instr} (hi : hostOp i = false) (s : State) :
    (∃ t, exec i s = .next t) ∨ exec i s = .fault .notSelected := by
  cases i
  case eVchk | eVfail | eVend | eFetch | eComplete | eTrunc | eWrite =>
    simp only [exec]
    exact encStep_completes_or_notSelected _ _ _
  case dRead | dMatch | dByte | dFinish =>
    simp only [exec]
    exact decStep_completes_or_notSelected _ _ _
  all_goals cases hi

theorem bitcnt_eq_eight_iff (n : BitVec 4) : n = 8#4 ↔ n.toNat = 8 := BitVec.toNat_inj.symm

/-- Settles O33: a micro-operation completes exactly in its row, which is the row of one unit. -/
theorem microOpRunsExactlyInItsRow : Obligations.MicroOpRunsExactlyInItsRow := by
  unfold Obligations.MicroOpRunsExactlyInItsRow
  intro s v b l encOut decOut marker
  have hexh : s.encExhausted = false ↔ ¬encOut := by rw [← Bool.not_eq_true, s.encExhausted_iff]
  refine ⟨?vend, ?vfail, ?vchk, ?complete, ?fetch, ?trunc, ?write, ?found, ?byte, ?finish, ?read,
    fun i hi => exec_ustep_completes_or_notSelected hi s⟩
  all_goals
    rw [exec_ustep_completes_iff rfl]
    simp only [encGuard, decGuard, or_false, false_or]
  case vend => rw [← BitVec.toNat_inj]
  case vfail | vchk | complete | fetch => exact Iff.rfl
  case trunc => rw [s.encExhausted_iff]
  case write => rw [hexh]
  case found => rw [bitcnt_eq_eight_iff]
  case byte => rw [bitcnt_eq_eight_iff]
  case finish => rw [s.decExhausted_iff]
  case read => rw [s.decExhausted_eq_false_iff, not_or]

/-! ### What a step does with the turn at hand -/

theorem step_of_fetch {s : State} {e : Encoded} {i : Instr} (hf : s.fetch = .op e) (hd : decode e = .ok i) :
    step s = exec i s.takeTurn := by
  simp [step, hf, hd]

/-- The step of the unit, when it is the unit's: ENC's if ENC runs (log 10). -/
theorem State.unitFetch_enc {s : State} (he : s.enc.state.running = true) : s.unitFetch = .op (.encStep s.encSeq) := by
  simp [State.unitFetch, he]

theorem State.unitFetch_dec {s : State} (he : s.enc.state.running = false) (hd : s.dec.state.running = true) :
    s.unitFetch = .op (.decStep s.decSeq) := by
  simp [State.unitFetch, he, hd]

theorem State.unitFetch_idle {s : State} (hb : s.busy = false) : s.unitFetch = .idle := by
  obtain ⟨he, hd⟩ := s.busy_eq_false_iff.1 hb
  simp [State.unitFetch, he, hd]

theorem State.fetch_unit {s : State} {rest : List Turn} (h : s.inbox = .unit :: rest) : s.fetch = s.unitFetch := by
  simp [State.fetch, h]

/-- Settles O34: the turn at the head of the list decides what is fetched, and is taken off. -/
theorem stepRunsTheDecodedOperation : Obligations.StepRunsTheDecodedOperation := by
  unfold Obligations.StepRunsTheDecodedOperation
  refine ⟨fun s q rest i hin hd => ?host, fun s rest i hin he hd => ?encTurn, fun s rest i hin he hs hd => ?decTurn,
    fun s i hin he hd => step_enc hin he hd, fun s i hin he hs hd => step_dec hin he ((DecState.running_iff _).2 hs) hd,
    fun s rest hin hb => ?idleTurn, fun s hin hb => step_idle hin hb⟩
  case host => rw [step_of_fetch (by simp [State.fetch, hin]) hd, State.takeTurn_host hin]
  case encTurn =>
    rw [step_of_fetch ((State.fetch_unit hin).trans (State.unitFetch_enc he)) hd, State.takeTurn_unit hin]
  case decTurn =>
    have hr : s.dec.state.running = true := (DecState.running_iff _).2 hs
    rw [step_of_fetch ((State.fetch_unit hin).trans (State.unitFetch_dec he hr)) hd, State.takeTurn_unit hin]
  case idleTurn => simp [step, State.fetch_unit hin, State.unitFetch_idle hb, State.takeTurn_unit hin]

/-! ### The unit's step -/

/-- The row of the unit that moves: ENC's if ENC runs, else DEC's. -/
def State.unitRow (s : State) (i : Instr) : Prop := if s.enc.state.running = true then encGuard s i else decGuard s i

theorem hostOp_of_unitRow {s : State} {i : Instr} (row : s.unitRow i) : hostOp i = false := by
  unfold State.unitRow at row
  split at row
  · exact hostOp_of_encGuard row
  · exact hostOp_of_decGuard row

/-- When the step is the running unit's, it is the operation its row selects. -/
theorem step_eq_next_iff_of_unitFetch {s : State} (hb : s.busy = true) (hf : s.fetch = s.unitFetch) (t : State) :
    step s = .next t ↔ ∃ i, s.unitRow i ∧ exec i s.takeTurn = .next t := by
  have key {e : Encoded} {row : Instr → Prop} (he : s.fetch = .op e) (hrow : ∀ i, decode e = .ok i ↔ row i) :
      step s = .next t ↔ ∃ i, row i ∧ exec i s.takeTurn = .next t := by
    cases hd : decode e with
    | ok i =>
      rw [step_of_fetch he hd]
      refine ⟨fun h => ⟨i, (hrow i).1 hd, h⟩, fun ⟨j, hj, h⟩ => ?_⟩
      obtain rfl : i = j := Except.ok.inj (hd.symm.trans ((hrow j).2 hj))
      exact h
    | error d =>
      simp only [step, he, hd, reduceCtorEq, false_iff, not_exists, not_and]
      intro j hj
      cases hd.symm.trans ((hrow j).2 hj)
  cases henc : s.enc.state.running with
  | true =>
    simp only [State.unitRow, henc, if_true]
    exact key (hf.trans (State.unitFetch_enc henc)) s.encSelected_eq_ok_iff
  | false =>
    have hdec : s.dec.state.running = true := (s.busy_iff.1 hb).resolve_left (by simp [henc])
    simp only [State.unitRow, henc, Bool.false_eq_true, if_false]
    exact key (hf.trans (State.unitFetch_dec henc hdec)) s.decSelected_eq_ok_iff

/-! ### WAIT -/

theorem State.raise_with_inbox (s : State) (l : List Turn) (c : Cause) (a : Nat) (d : Word) :
    ({ s with inbox := l } : State).raise c a d = { s.raise c a d with inbox := l } := by
  unfold State.raise
  split <;> rfl

/-- A move neither depends on the list of turns nor changes it. -/
theorem EncMove.with_inbox {i : Instr} {s t : State} (h : EncMove s i t) (l : List Turn) :
    EncMove { s with inbox := l } i { t with inbox := l } := by
  cases h with
  | vchk row => exact .vchk row
  | vfail row =>
    have hmove := EncMove.vfail (s := { s with inbox := l }) row
    rw [State.raise_with_inbox] at hmove
    exact hmove
  | vend row => exact .vend row
  | fetch row => exact .fetch row
  | complete row => exact .complete row
  | trunc row => exact .trunc row
  | write row => exact .write row

theorem DecMove.with_inbox {i : Instr} {s t : State} (h : DecMove s i t) (l : List Turn) :
    DecMove { s with inbox := l } i { t with inbox := l } := by
  cases h with
  | read row => exact .read row
  | found row => exact .found row
  | firstByte row empty => exact .firstByte row empty
  | nextByte row held => exact .nextByte row held
  | finishEmpty row empty => exact .finishEmpty row empty
  | finishDropped row held tail => exact .finishDropped row held tail
  | finishDelivered row held tail => exact .finishDelivered row held tail

theorem exec_ustep_with_inbox {i : Instr} {s t : State} (hi : hostOp i = false) (h : exec i s = .next t)
    (l : List Turn) : exec i { s with inbox := l } = .next { t with inbox := l } :=
  (exec_ustep_cases hi h).elim (fun he => (he.with_inbox l).exec) fun hd => (hd.with_inbox l).exec

theorem exec_ustep_inbox {i : Instr} {s t : State} (hi : hostOp i = false) (h : exec i s = .next t) :
    t.inbox = s.inbox :=
  (exec_ustep_cases hi h).elim (fun he => he.sameRest.host.1) fun hd => hd.sameRest.host.1

/-- Settles O35: with WAIT next and a unit BUSY the step is the unit's, whose move does not depend on the list of
turns; with no unit BUSY it is the reading of STATUS. -/
theorem waitEndsWhenBusyEnds : Obligations.WaitEndsWhenBusyEnds := by
  unfold Obligations.WaitEndsWhenBusyEnds
  refine ⟨fun s t rest hin hb => ?busy, fun s rest hin hb => ⟨?bit, ?status⟩⟩
  case busy =>
    have hturn : s.takeTurn = s := by simp [State.takeTurn, hin, hb]
    have hself : s = { s with inbox := .wait :: rest } := by rw [← hin]
    rw [step_eq_next_iff_of_unitFetch hb (by simp [State.fetch, hin, hb]), hturn]
    constructor
    · rintro ⟨i, row, h⟩
      have hi := hostOp_of_unitRow row
      refine ⟨{ t with inbox := [] }, ?_, ?_⟩
      · exact (step_eq_next_iff_of_unitFetch (s := { s with inbox := [] }) hb rfl _).2
          ⟨i, row, exec_ustep_with_inbox hi h []⟩
      · rw [← hin, ← exec_ustep_inbox hi h]
    · rintro ⟨u, h, rfl⟩
      obtain ⟨i, row, hu⟩ := (step_eq_next_iff_of_unitFetch (s := { s with inbox := [] }) hb rfl _).1 h
      refine ⟨i, row, ?_⟩
      rw [hself]
      exact exec_ustep_with_inbox (hostOp_of_unitRow row) hu (.wait :: rest)
  case bit =>
    obtain ⟨hbit, -⟩ := s.status_fields
    rw [hbit, hb]
  case status =>
    have hf : s.fetch = .op (.xact Request.readStatus) := by simp [State.fetch, hin, hb]
    have hturn : s.takeTurn = { s with inbox := rest } := by simp [State.takeTurn, hin, hb]
    rw [step_of_fetch (i := .regRead 1) hf rfl, hturn]
    exact exec_regRead_status _

/-! ### Reset, commands -/

/-- STATUS is 0 with both units IDLE, no flag set and no fault latched. -/
theorem State.status_eq_zero {s : State} (he : s.enc.state = .idle) (hd : s.dec.state = .idle) (hc : s.cause = 0#4)
    (ht : s.trunc = false) (hm : s.mfound = false) (htail : s.taildrop = false) : s.status = 0x00000000#32 := by
  rw [State.status, State.err, State.busy, he, hd, hc, ht, hm, htail]
  decide

/-- The table of R49, and unknown memories, whatever the model's own fields are. -/
theorem State.resetOf_table (cfg : Config) (l : List Turn) (o : List Reply) (e n : Nat) :
    let t : State := { State.resetOf cfg with inbox := l, outbox := o, epoch := e, freeIx := n }
    t.width = 0#16 ∧ t.height = 0#16 ∧ t.plen = 0#32 ∧ t.olen = 0#32 ∧
    t.cause = 0#4 ∧ t.faddr = 0#32 ∧ t.fdata = 0#32 ∧
    t.trunc = false ∧ t.mfound = false ∧ t.taildrop = false ∧ t.status = 0x00000000#32 ∧
    t.enc = EncUnit.reset ∧ t.dec = DecUnit.reset ∧
    (∀ a, t.gmemRead a = Config.initialGmem t.epoch a) ∧ (∀ a, t.pmemRead a = Config.initialPmem t.epoch a) ∧
    ∀ a, t.omemRead a = Config.initialOmem t.epoch a :=
  ⟨rfl, rfl, rfl, rfl, rfl, rfl, rfl, rfl, rfl, rfl, State.status_eq_zero rfl rfl rfl rfl rfl rfl, rfl, rfl,
    fun _ => rfl, fun _ => rfl, fun _ => rfl⟩

theorem step_reset {s : State} {rest : List Turn} (h : s.inbox = .reset :: rest) :
    step s = .next ({ s with inbox := rest } : State).hostReset := by
  have hf : s.fetch = .reset := by simp [State.fetch, h]
  simp [step, hf, State.takeTurn_reset h]

/-- Settles O1: the state after reset is the table's; while BUSY the host is only noted. -/
theorem resetLeavesTheTableValues : Obligations.ResetLeavesTheTableValues := by
  unfold Obligations.ResetLeavesTheTableValues
  refine ⟨State.resetOf_table _ _ _ _ _, fun s rest hin => ?turn, fun i s t hi hb h => ?busy⟩
  case turn => exact ⟨_, step_reset hin, State.resetOf_table _ _ _ _ _, rfl, rfl, rfl⟩
  case busy =>
    obtain ⟨henc, hdec, -⟩ := (exec_host_noted_of_busy hb hi h).frame
    exact ⟨henc, hdec⟩

/-- Settles O6: both are the dispatch of the command's word; register 0 holds nothing. -/
theorem commandIsAWriteToCmd : Obligations.CommandIsAWriteToCmd := by
  unfold Obligations.CommandIsAWriteToCmd
  refine ⟨fun c s => ⟨?decodes, (exec_regWrite_cmd s _).trans (exec_command c s).symm⟩,
    fun s hb => exec_regRead_of_regValue (.inl hb) rfl⟩
  case decodes => rw [decode, decodeCommand_word]; rfl

end Sys2Proof.Machine
end

section
/-! Single micro-operations (41_encoder.md R142, R147) and the position of a cursor (10_state.md R44). -/

namespace Sys2Proof.Machine

/-- Settles O23: E_VFAIL is selected, and what it raises is not recorded. -/
theorem eVfailKeepsAnEarlierFault : Obligations.EVfailKeepsAnEarlierFault := by
  unfold Obligations.EVfailKeepsAnEarlierFault
  intro s hstate hvidx hunit hcause
  refine (exec_eVfail_iff s _).2 ⟨⟨hstate, hvidx, hunit⟩, ?_⟩
  rw [State.raise_of_latched hcause]

/-! ### The datapath after E_WRITE -/

section AfterWrite
variable (e : EncUnit) (w : BitVec 16)

@[simp] theorem EncUnit.afterWrite_sr : (e.afterWrite w).sr = e.sr <<< 1 := by unfold EncUnit.afterWrite; split <;> rfl

@[simp] theorem EncUnit.afterWrite_cur : (e.afterWrite w).cur = e.cur.advance w := by
  unfold EncUnit.afterWrite; split <;> rfl

@[simp] theorem EncUnit.afterWrite_vidx : (e.afterWrite w).vidx = e.vidx := by
  unfold EncUnit.afterWrite; split <;> rfl

/-- The eighth bit of a byte ends it. -/
theorem EncUnit.afterWrite_of_last {e : EncUnit} (h : e.bitcnt = 7#3) :
    (e.afterWrite w).bitcnt = 0#3 ∧ (e.afterWrite w).bidx = e.bidx + 1#33 ∧ (e.afterWrite w).state = .fetch := by
  simp [EncUnit.afterWrite, h]

/-- An earlier bit is counted. -/
theorem EncUnit.afterWrite_of_inner {e : EncUnit} (h : e.bitcnt ≠ 7#3) :
    (e.afterWrite w).bitcnt = e.bitcnt + 1#3 ∧ (e.afterWrite w).bidx = e.bidx ∧
      (e.afterWrite w).state = e.state := by
  simp [EncUnit.afterWrite, h]

end AfterWrite

/-- A state whose GMEM is another's with one element written. -/
theorem State.gmemRead_of_store {s t : State} {a : Nat} {v : Byte} (hm : t.gmem = Mem.store s.gmem a v)
    (he : t.epoch = s.epoch) (b : Nat) : t.gmemRead b = if b = a then v else s.gmemRead b :=
  (State.gmemRead_congr (s := s.gmemWrite a v) hm he b).trans (s.gmemRead_gmemWrite a b v)

/-- After E_WRITE the channel under the cursor carries SR[7]; every other element reads as before. -/
theorem gmemRead_of_eWrite {s t : State} (h : exec .eWrite s = .next t) (b : Nat) :
    t.gmemRead b =
      if b = s.enc.cur.addr s.width then Ref.setLsb (s.gmemRead (s.enc.cur.addr s.width)) (s.enc.sr.getLsbD 7)
      else s.gmemRead b := by
  obtain ⟨-, ht⟩ := (exec_eWrite_iff s t).1 h
  have hepoch : t.epoch = s.epoch := by rw [ht]; rfl
  exact State.gmemRead_of_store (by rw [ht]; rfl) hepoch b

/-- The bit E_WRITE writes, as R147 writes it. -/
theorem setLsb_top_bit (v sr : Byte) : Ref.setLsb v (sr.getLsbD 7) = ((v &&& 0xFE#8) ||| (sr >>> 7)) := by
  have htop : (BitVec.ofBool (sr.getLsbD 7)).setWidth 8 = sr >>> 7 := by
    revert sr
    decide
  rw [Ref.setLsb, htop]

/-- Settles O28: E_WRITE is selected; its one write is the element under the cursor, its datapath `afterWrite`. -/
theorem eWriteWritesOneBit : Obligations.EWriteWritesOneBit := by
  unfold Obligations.EWriteWritesOneBit
  intro s hstate hwidth hrow
  have hopen : s.encExhausted = false := by
    rw [← Bool.not_eq_true, s.encExhausted_iff, not_or]
    exact ⟨hwidth, hrow⟩
  have hexec := (exec_eWrite_iff s _).2 ⟨⟨hstate, hopen⟩, rfl⟩
  refine ⟨_, hexec, ?memory, s.enc.afterWrite_sr s.width, fun h => EncUnit.afterWrite_of_last s.width h,
    fun h => hstate ▸ EncUnit.afterWrite_of_inner s.width h, s.enc.afterWrite_cur s.width,
    s.enc.afterWrite_vidx s.width, rfl⟩
  case memory =>
    rintro a rfl
    refine ⟨?_, fun b hb => (gmemRead_of_eWrite hexec b).trans (if_neg hb)⟩
    rw [← setLsb_top_bit]
    exact (gmemRead_of_eWrite hexec _).trans (if_pos rfl)

/-- Where the cursor is not exhausted, its position is its address (R44). -/
theorem Cursor.pos_of_open {c : Cursor} {w h : BitVec 16} (he : c.exhausted w h = false) : c.pos w h = c.addr w :=
  if_neg (Bool.eq_false_iff.1 he)

/-- Settles O44: the position is `3 * W * ROW + (3 * COL + CH)`, the second part being below `3 * W`. -/
theorem cursorIsItsLinearPosition : Obligations.CursorIsItsLinearPosition := by
  unfold Obligations.CursorIsItsLinearPosition
  intro c w h hl he
  have hpos : c.pos w h = (c.row.toNat * w.toNat + c.col.toNat) * 3 + c.ch.toNat := Cursor.pos_of_open he
  have hlt : c.pos w h < 3 * w.toNat * h.toNat := (Cursor.pos_of_open he).trans_lt (Cursor.addr_lt hl he)
  obtain ⟨-, hc, hk⟩ := hl
  have hw : w.toNat ≠ 0 := by
    rintro h0
    simp [h0] at hlt
  have hcol : c.col.toNat < w.toNat := by omega
  have hdiv : c.pos w h / 3 = w.toNat * c.row.toNat + c.col.toNat := by
    rw [hpos, Nat.mul_comm w.toNat]
    omega
  refine ⟨hlt, ?row, ?col, by omega⟩
  case row => rw [← Nat.div_div_eq_div_mul, hdiv, Nat.mul_add_div (by omega), Nat.div_eq_of_lt hcol, Nat.add_zero]
  case col => rw [hdiv, Nat.mul_add_mod, Nat.mod_eq_of_lt hcol]

end Sys2Proof.Machine
end

section
/-! The invariant: its parts (memories, fault registers, each unit), what each part depends on, and that every move of
the host and of the units keeps it (41_encoder.md R148, 42_decoder.md R175). -/

namespace Sys2Proof.Machine

/-! ### The parts of the invariant -/

/-- The memories are canonical and inside their spaces. -/
structure State.MemOk (s : State) : Prop where
  gmem : Mem.within s.gmem s.cfg.gmax.val
  pmem : Mem.within s.pmem s.cfg.pmax.val
  omem : Mem.within s.omem s.cfg.omax

/-- The fault registers are legal, and ENC in ERROR has a fault latched. -/
structure State.FaultOk (s : State) : Prop where
  legal : s.cause.toNat ≤ 6
  clear : s.cause = 0#4 → s.faddr = 0#32 ∧ s.fdata = 0#32
  error : s.enc.state = .error → s.cause ≠ 0#4

/-- What holds of ENC while it runs. -/
structure State.EncOk (s : State) : Prop where
  fits : s.enc.state.running = true → s.channels ≤ s.cfg.gmax.val ∧ s.plen.toNat ≤ s.cfg.pmax.val ∧ s.trunc = false
  validating : s.enc.state = .validate → s.Validating
  embedding : s.enc.state = .fetch ∨ s.enc.state = .write → s.Embedding

/-- What holds of DEC while it runs. -/
structure State.DecOk (s : State) : Prop where
  fits : s.dec.state.running = true → s.channels ≤ s.cfg.gmax.val
  scanning : s.dec.state = .scanning → s.Scanning

/-- At most one unit runs (43_host_commands.md R208). -/
def State.OneRuns (s : State) : Prop := ¬(s.enc.state.running = true ∧ s.dec.state.running = true)

theorem State.inv_iff (s : State) : s.Inv ↔ s.MemOk ∧ s.FaultOk ∧ s.OneRuns ∧ s.EncOk ∧ s.DecOk := by
  constructor
  · intro h
    exact ⟨⟨h.gmem, h.pmem, h.omem⟩, ⟨h.causeLegal, h.causeClear, h.errorLatched⟩, h.oneRuns,
      ⟨h.encFits, h.validating, h.embedding⟩, ⟨h.decFits, h.scanning⟩⟩
  · rintro ⟨hm, hf, ho, he, hd⟩
    exact ⟨hm.gmem, hm.pmem, hm.omem, ho, hf.legal, hf.clear, hf.error, he.fits, he.validating, he.embedding, hd.fits,
      hd.scanning⟩

/-! ### What each part depends on -/

section Congr
variable {s t : State}

theorem State.MemOk.congr (h : s.MemOk) (hc : t.cfg = s.cfg) (hg : t.gmem = s.gmem) (hp : t.pmem = s.pmem)
    (ho : t.omem = s.omem) : t.MemOk := by
  obtain ⟨h1, h2, h3⟩ := h
  exact ⟨by rwa [hg, hc], by rwa [hp, hc], by rwa [ho, hc]⟩

theorem State.frameByte_congr (hl : t.plen = s.plen) (hp : ∀ a, t.pmemRead a = s.pmemRead a) (n : Nat) :
    t.frameByte n = s.frameByte n := by
  rw [State.frameByte, State.frameByte, hl, hp]

theorem State.unitsValid_congr (hp : ∀ a, t.pmemRead a = s.pmemRead a) (n : Nat) : t.unitsValid n ↔ s.unitsValid n := by
  simp only [State.unitsValid, hp]

theorem State.channels_congr (h : s.SameConfig t) : t.channels = s.channels := by
  obtain ⟨-, hw, hh, -⟩ := h
  rw [State.channels, State.channels, hw, hh]

/-- ENC's part depends on ENC, the configuration, TRUNC and what PMEM reads. -/
theorem State.EncOk.congr (h : s.EncOk) (he : t.enc = s.enc) (hc : s.SameConfig t) (ht : t.trunc = s.trunc)
    (hp : ∀ a, t.pmemRead a = s.pmemRead a) : t.EncOk := by
  have hn := State.channels_congr hc
  have hframe := State.frameByte_congr hc.2.2.2 hp
  have hvalid := State.unitsValid_congr hp
  obtain ⟨hcfg, hw, hh, hl⟩ := hc
  refine ⟨fun hr => ?fits, fun hs => ?validating, fun hs => ?embedding⟩
  case fits => rw [hn, hcfg, hl, ht]; exact h.fits (he ▸ hr)
  case validating =>
    obtain ⟨h1, h2, h3⟩ := h.validating (he ▸ hs)
    rw [← he, ← hl] at h1
    rw [← he] at h2 h3
    exact ⟨h1, (hvalid _).2 h2, h3⟩
  case embedding =>
    obtain ⟨h1, h2, h3, h4, h5, h6⟩ := h.embedding (he ▸ hs)
    rw [State.streamPos] at h3
    simp only [← he, ← hw, ← hh, ← hl, ← hframe] at h1 h2 h3 h4 h5 h6
    exact ⟨(hvalid _).2 h1, h2, h3, h4, h5, h6⟩

/-- DEC's part depends on DEC, the configuration, OLEN, MFOUND and TAILDROP. -/
theorem State.DecOk.congr (h : s.DecOk) (hd : t.dec = s.dec) (hc : s.SameConfig t) (ho : t.olen = s.olen)
    (hm : t.mfound = s.mfound) (htail : t.taildrop = s.taildrop) : t.DecOk := by
  have hn := State.channels_congr hc
  obtain ⟨hcfg, hw, hh, -⟩ := hc
  refine ⟨fun hr => ?fits, fun hs => ?scanning⟩
  case fits => rw [hn, hcfg]; exact h.fits (hd ▸ hr)
  case scanning =>
    obtain ⟨h1, h2, h3, h4, h5⟩ := h.scanning (hd ▸ hs)
    simp only [← hd, ← hw, ← hh, ← ho, ← hm, ← htail] at h1 h2 h3 h4 h5
    exact ⟨h1, h2, h3, h4, h5⟩

/-- A unit that does not run has no part of its own. -/
theorem State.EncOk.of_resting (hr : t.enc.state.running = false) : t.EncOk := by
  refine ⟨fun h => absurd (hr.symm.trans h) (by decide), fun h => ?_, fun h => ?_⟩
  · simp [h, EncState.running] at hr
  · rcases h with h | h <;> simp [h, EncState.running] at hr

theorem State.DecOk.of_resting (hr : t.dec.state.running = false) : t.DecOk := by
  refine ⟨fun h => absurd (hr.symm.trans h) (by decide), fun h => ?_⟩
  simp [h, DecState.running] at hr

end Congr

/-! ### A START -/

/-- What a START sets up meets the part of its unit. -/
theorem State.EncOk.of_start {s : State} (hn : s.channels ≤ s.cfg.gmax.val) (hp : s.plen.toNat ≤ s.cfg.pmax.val) :
    State.EncOk { s with enc := { EncUnit.reset with state := .validate }, trunc := false } := by
  refine ⟨fun _ => ⟨hn, hp, rfl⟩, fun _ => ⟨Nat.zero_le _, ?_, rfl, rfl, rfl⟩, fun h => ?_⟩
  · intro j hj
    exact absurd hj (Nat.not_lt_zero j)
  · rcases h with h | h <;> cases h

theorem State.DecOk.of_start {s : State} (hn : s.channels ≤ s.cfg.gmax.val) :
    State.DecOk { s with
      dec := { DecUnit.reset with state := .scanning }, olen := 0#32, mfound := false, taildrop := false } := by
  obtain ⟨hlegal, hpos⟩ := Cursor.zero_legal s.width s.height
  exact ⟨fun _ => hn, fun _ => ⟨Nat.zero_le _, hlegal, hpos, fun _ => rfl, rfl, rfl, rfl⟩⟩

/-! ### The moves of ENC -/

/-- After E_WRITE the byte goes on or the next one is fetched. -/
theorem EncUnit.afterWrite_state {e : EncUnit} (w : BitVec 16) (h : e.state = .write) :
    (e.afterWrite w).state = .fetch ∨ (e.afterWrite w).state = .write := by
  by_cases h7 : e.bitcnt = 7#3
  · exact .inl (EncUnit.afterWrite_of_last w h7).2.2
  · exact .inr ((EncUnit.afterWrite_of_inner w h7).2.2.trans h)

/-- A bit before the eighth is counted without a wrap. -/
theorem toNat_inner_bitcnt_add_one {n : BitVec 3} (h : n ≠ 7#3) : (n + 1#3).toNat = n.toNat + 1 := by
  revert n
  decide

/-- E_WRITE moves the position in the bitstream on by one; BIDX does not wrap. -/
theorem EncUnit.afterWrite_streamPos {e : EncUnit} (w : BitVec 16) (h : e.bidx.toNat < 2 ^ 33 - 1) :
    8 * (e.afterWrite w).bidx.toNat + (e.afterWrite w).bitcnt.toNat = 8 * e.bidx.toNat + e.bitcnt.toNat + 1 := by
  by_cases h7 : e.bitcnt = 7#3
  · obtain ⟨hbitcnt, hbidx, -⟩ := EncUnit.afterWrite_of_last w h7
    have hadd : (e.bidx + 1#33).toNat = e.bidx.toNat + 1 :=
      BitVec.toNat_add_of_lt (show e.bidx.toNat + 1 < 2 ^ 33 by omega)
    rw [hbitcnt, hbidx, hadd, h7]
    simp only [BitVec.toNat_ofNat]
    omega
  · obtain ⟨hbitcnt, hbidx, -⟩ := EncUnit.afterWrite_of_inner w h7
    rw [hbitcnt, hbidx, toNat_inner_bitcnt_add_one h7]
    omega

/-- The channel E_WRITE writes is the one at the position in the bitstream, inside the grid. -/
theorem State.Embedding.addr_eq {s : State} (h : s.Embedding) (hopen : s.encExhausted = false) :
    s.enc.cur.addr s.width = s.streamPos ∧ s.streamPos < s.channels := by
  rw [h.together, Cursor.pos_of_open hopen]
  exact ⟨rfl, Cursor.addr_lt h.cursor hopen⟩

/-- The position in the bitstream never passes the end of the grid. -/
theorem State.Embedding.streamPos_le {s : State} (h : s.Embedding) : s.streamPos ≤ s.channels := by
  rw [h.together]
  exact Cursor.pos_le h.cursor

/-- E_WRITE moves SR, the position in the bitstream and the cursor on together. -/
theorem EncMove.write_embedding {s t : State} (m : EncMove s .eWrite t) (h : s.Embedding) : t.Embedding := by
  cases m with
  | write row =>
    obtain ⟨hstate, hopen⟩ := row
    obtain ⟨hvalid, hcursor, htogether, hbidx, -, hwrite⟩ := h
    obtain ⟨hlt, hsr⟩ := hwrite hstate
    obtain ⟨hadv, hlegal⟩ := Cursor.advance_pos hcursor hopen
    have hpos := EncUnit.afterWrite_streamPos s.width (e := s.enc) (by omega)
    have htogether' : 8 * (s.enc.afterWrite s.width).bidx.toNat + (s.enc.afterWrite s.width).bitcnt.toNat =
        (s.enc.afterWrite s.width).cur.pos s.width s.height := by
      rw [hpos, EncUnit.afterWrite_cur, hadv, ← htogether, State.streamPos]
    have hlegal' : (s.enc.afterWrite s.width).cur.legal s.width s.height := by rwa [EncUnit.afterWrite_cur]
    by_cases h7 : s.enc.bitcnt = 7#3
    case pos =>
      obtain ⟨hbitcnt', hbidx', hstate'⟩ := EncUnit.afterWrite_of_last s.width h7
      refine ⟨hvalid, hlegal', htogether', ?_, fun _ => hbitcnt', ?_⟩
      · change (s.enc.afterWrite s.width).bidx.toNat ≤ s.plen.toNat + 2
        rw [hbitcnt', h7] at hpos
        simp only [BitVec.toNat_ofNat] at hpos
        omega
      · simp [hstate']
    case neg =>
      obtain ⟨hbitcnt', hbidx', hstate'⟩ := EncUnit.afterWrite_of_inner s.width h7
      refine ⟨hvalid, hlegal', htogether', ?_, ?_, fun _ => ⟨?_, ?_⟩⟩
      · dsimp only
        rwa [hbidx']
      · simp [hstate', hstate]
      · dsimp only
        rwa [hbidx']
      · dsimp only
        rw [EncUnit.afterWrite_sr, hsr, hbidx', hbitcnt', toNat_inner_bitcnt_add_one h7, BitVec.shiftLeft_add]
        rfl

/-- Every move of ENC keeps ENC's part of the invariant. -/
theorem EncMove.keeps_encOk {i : Instr} {s t : State} (h : EncMove s i t) (ok : s.EncOk) : t.EncOk := by
  have fits := ok.fits h.running
  have hmove := h
  cases h with
  | vchk row =>
    obtain ⟨hstate, hlt, hunit⟩ := row
    obtain ⟨-, hchecked, hfresh⟩ := ok.validating hstate
    have hvidx := toNat_add_one_of_lt hlt
    refine ⟨fun _ => fits, fun _ => ⟨?_, ?_, hfresh⟩, fun h => by simp [hstate] at h⟩
    · dsimp only
      omega
    · dsimp only
      rw [hvidx]
      intro j hj
      rcases Nat.lt_succ_iff_lt_or_eq.1 hj with hj | rfl
      · exact hchecked j hj
      · exact hunit
  | vfail | complete | trunc => exact .of_resting rfl
  | vend row =>
    obtain ⟨hstate, hvidx⟩ := row
    obtain ⟨-, hchecked, hbidx, hbitcnt, hcur⟩ := ok.validating hstate
    obtain ⟨hlegal, hpos⟩ := Cursor.zero_legal s.width s.height
    have hstream : s.streamPos = 0 := by rw [State.streamPos, hbidx, hbitcnt]; rfl
    refine ⟨fun _ => fits, nofun, fun _ => ⟨hvidx ▸ hchecked, ?_, ?_, ?_, fun _ => hbitcnt, nofun⟩⟩
    · rw [hcur]; exact hlegal
    · rw [hcur, hpos]; exact hstream
    · rw [hbidx]; exact Nat.zero_le _
  | fetch row =>
    obtain ⟨hstate, hlt⟩ := row
    obtain ⟨hvalid, hcursor, htogether, hbidx, hfetch, -⟩ := ok.embedding (.inl hstate)
    have hbitcnt := hfetch hstate
    refine ⟨fun _ => fits, nofun,
      fun _ => ⟨hvalid, hcursor, htogether, hbidx, nofun, fun _ => ⟨hlt, ?_⟩⟩⟩
    rw [hbitcnt]
    exact (BitVec.shiftLeft_zero _).symm
  | write row =>
    have hstate := EncUnit.afterWrite_state s.width row.1
    refine ⟨fun _ => fits, fun hv => ?_, fun _ => hmove.write_embedding (ok.embedding (.inr row.1))⟩
    rcases hstate with hstate | hstate
    all_goals cases hstate.symm.trans hv

/-! ### The moves of DEC -/

/-- What D_READ reads lies inside the grid, at DEC's position. -/
theorem State.Scanning.addr_eq {s : State} (h : s.Scanning) (hopen : s.decExhausted = false) :
    s.dec.cur.addr s.width = 8 * (s.dec.oidx.toNat + s.dec.holdv.toNat) + s.dec.bitcnt.toNat ∧
      8 * (s.dec.oidx.toNat + s.dec.holdv.toNat) + s.dec.bitcnt.toNat < s.channels := by
  rw [← h.together, Cursor.pos_of_open hopen]
  exact ⟨rfl, Cursor.addr_lt h.cursor hopen⟩

/-- The bits read so far are no more than the grid has. -/
theorem State.Scanning.read_le {s : State} (h : s.Scanning) :
    8 * (s.dec.oidx.toNat + s.dec.holdv.toNat) + s.dec.bitcnt.toNat ≤ s.channels := by
  rw [← h.together]
  exact Cursor.pos_le h.cursor

/-- Once the grid is exhausted the bits read are all there are. -/
theorem State.Scanning.read_eq {s : State} (h : s.Scanning) (hexh : s.decExhausted = true) :
    8 * (s.dec.oidx.toNat + s.dec.holdv.toNat) + s.dec.bitcnt.toNat = s.channels := by
  rw [← h.together]
  exact (Cursor.pos_eq_iff h.cursor).2 hexh

/-- A held byte has its place in OMEM, and OIDX does not wrap. -/
theorem State.DecOk.oidx_lt {s : State} (ok : s.DecOk) (hstate : s.dec.state = .scanning) (held : s.dec.holdv = true) :
    s.dec.oidx.toNat < s.cfg.omax ∧ (s.dec.oidx + 1#32).toNat = s.dec.oidx.toNat + 1 := by
  have hfits := ok.fits ((DecState.running_iff _).2 hstate)
  have hread := (ok.scanning hstate).read_le
  rw [held, Bool.toNat_true] at hread
  have hmax : s.cfg.gmax.val < 2 ^ 32 + 1 := s.cfg.gmax.isLt
  have hlt : s.dec.oidx.toNat < s.cfg.gmax.val / 8 := by omega
  exact ⟨hlt, BitVec.toNat_add_of_lt (show s.dec.oidx.toNat + 1 < 2 ^ 32 by omega)⟩

/-- Every move of DEC keeps DEC's part of the invariant. -/
theorem DecMove.keeps_decOk {i : Instr} {s t : State} (h : DecMove s i t) (ok : s.DecOk) : t.DecOk := by
  have fits := ok.fits h.running
  cases h with
  | read row =>
    obtain ⟨hstate, hlt, hopen⟩ := row
    obtain ⟨-, hcursor, htogether, hfirst, hresults⟩ := ok.scanning hstate
    obtain ⟨hadv, hlegal⟩ := Cursor.advance_pos hcursor hopen
    have hbitcnt := toNat_bitcnt_add_one hlt
    refine ⟨fun _ => fits, fun _ => ⟨?_, hlegal, ?_, hfirst, hresults⟩⟩
    · dsimp only
      omega
    · dsimp only
      omega
  | firstByte row empty =>
    obtain ⟨hstate, hfull, -⟩ := row
    obtain ⟨-, hcursor, htogether, -, hresults⟩ := ok.scanning hstate
    refine ⟨fun _ => fits, fun _ => ⟨Nat.zero_le _, hcursor, ?_, nofun, hresults⟩⟩
    rw [htogether, empty, hfull]
    rfl
  | nextByte row held =>
    obtain ⟨hstate, hfull, -⟩ := row
    obtain ⟨-, hcursor, htogether, -, hresults⟩ := ok.scanning hstate
    obtain ⟨-, hoidx⟩ := ok.oidx_lt hstate held
    refine ⟨fun _ => fits, fun _ => ⟨Nat.zero_le _, hcursor, ?_, nofun, hresults⟩⟩
    dsimp only
    rw [State.omemWrite_width, State.omemWrite_height, htogether, held, hfull, hoidx]
    rfl
  | found | finishEmpty | finishDropped | finishDelivered => exact .of_resting rfl

/-! ### Memories and fault registers -/

theorem EncMove.keeps_memOk {i : Instr} {s t : State} (h : EncMove s i t) (ok : s.EncOk) (hm : s.MemOk) : t.MemOk := by
  obtain ⟨hfits, -, -⟩ := ok.fits h.running
  obtain ⟨⟨hcfg, -⟩, hp, -⟩ := h.sameRest
  obtain ⟨-, ho, -⟩ := h.dec_frame
  cases h with
  | write row =>
    obtain ⟨hstate, hopen⟩ := row
    obtain ⟨haddr, hlt⟩ := (ok.embedding (.inr hstate)).addr_eq hopen
    exact ⟨Mem.within_store _ hm.gmem (show _ < s.cfg.gmax.val by omega), hm.pmem, hm.omem⟩
  | vfail => exact hm.congr hcfg (s.raise_gmem _ _ _) hp ho
  | vchk | vend | fetch | complete | trunc => exact hm.congr rfl rfl rfl rfl

theorem DecMove.keeps_memOk {i : Instr} {s t : State} (h : DecMove s i t) (ok : s.DecOk) (hm : s.MemOk) : t.MemOk := by
  have hrow := h.row
  cases h with
  | nextByte row held | finishDelivered row held tail =>
    obtain ⟨hlt, -⟩ := ok.oidx_lt row.1 held
    exact ⟨hm.gmem, hm.pmem, Mem.within_store _ hm.omem hlt⟩
  | read | found | firstByte | finishEmpty | finishDropped => exact hm.congr rfl rfl rfl rfl

/-- Raising a fault leaves the fault registers legal, whatever becomes of ENC. -/
theorem State.FaultOk.raise {s : State} (h : s.FaultOk) (c : Cause) (a : Nat) (d : Word) (e : EncUnit) :
    State.FaultOk { s.raise c a d with enc := e } := by
  have hne := s.raise_cause_ne_zero c a d
  refine ⟨?_, fun h0 => absurd h0 hne, fun _ => hne⟩
  by_cases hc : s.cause = 0#4
  · rw [State.raise_of_clear hc]
    exact c.code_le
  · rw [State.raise_of_latched hc]
    exact h.legal

theorem EncMove.keeps_faultOk {i : Instr} {s t : State} (h : EncMove s i t) (hf : s.FaultOk) : t.FaultOk := by
  cases h with
  | vfail => exact hf.raise _ _ _ _
  | vchk row => exact ⟨hf.legal, hf.clear, fun he => hf.error he⟩
  | vend | fetch | complete | trunc => exact ⟨hf.legal, hf.clear, nofun⟩
  | write row =>
    have hstate := EncUnit.afterWrite_state s.width row.1
    exact ⟨hf.legal, hf.clear, fun he => absurd he (by rcases hstate with h | h <;> simp [h])⟩

theorem DecMove.keeps_faultOk {i : Instr} {s t : State} (h : DecMove s i t) (hf : s.FaultOk) : t.FaultOk := by
  obtain ⟨he, -, -, hcause, hfaddr, hfdata⟩ := h.enc_frame
  exact ⟨hcause ▸ hf.legal, by rw [hcause, hfaddr, hfdata]; exact hf.clear, by rw [he, hcause]; exact hf.error⟩

/-! ### Every move keeps the invariant -/

theorem EncMove.keeps_inv {i : Instr} {s t : State} (h : EncMove s i t) (inv : s.Inv) : t.Inv := by
  obtain ⟨hm, hf, hone, he, hd⟩ := s.inv_iff.1 inv
  have hrest : t.dec.state.running = false := by
    rw [h.dec_frame.1]
    exact Bool.eq_false_iff.2 fun hr => hone ⟨h.running, hr⟩
  exact t.inv_iff.2 ⟨h.keeps_memOk he hm, h.keeps_faultOk hf, fun hr => by simp [hrest] at hr, h.keeps_encOk he,
    .of_resting hrest⟩

theorem DecMove.keeps_inv {i : Instr} {s t : State} (h : DecMove s i t) (inv : s.Inv) : t.Inv := by
  obtain ⟨hm, hf, hone, he, hd⟩ := s.inv_iff.1 inv
  have hrest : t.enc.state.running = false := by
    rw [h.enc_frame.1]
    exact Bool.eq_false_iff.2 fun hr => hone ⟨hr, h.running⟩
  exact t.inv_iff.2 ⟨h.keeps_memOk hd hm, h.keeps_faultOk hf, fun hr => by simp [hrest] at hr, .of_resting hrest,
    h.keeps_decOk hd⟩

/-- A block in which no unit runs meets the invariant if its memories and fault registers do. -/
theorem State.inv_of_resting {t : State} (hb : t.busy = false) (hm : t.MemOk) (hf : t.FaultOk) : t.Inv := by
  obtain ⟨he, hd⟩ := t.busy_eq_false_iff.1 hb
  exact t.inv_iff.2 ⟨hm, hf, fun hr => by simp [he] at hr, .of_resting he, .of_resting hd⟩

theorem State.Noted.keeps_inv {s t : State} (h : s.Noted t) (inv : s.Inv) : t.Inv := by
  obtain ⟨hm, hf, hone, he, hd⟩ := s.inv_iff.1 inv
  obtain ⟨henc, hdec, hcfg, ⟨holen, htrunc, hmfound, htail⟩, ⟨-, hpread, -⟩, -⟩ := h.frame
  obtain ⟨hg, hp, ho⟩ := h.memories
  have hf' : t.FaultOk := by
    obtain ⟨r, rfl | ⟨c, a, d, rfl⟩, o, n, rfl⟩ := h
    · exact ⟨hf.legal, hf.clear, hf.error⟩
    · obtain ⟨h1, h2, h3⟩ := hf.raise c a d (s.raise c a d).enc
      exact ⟨h1, h2, h3⟩
  refine t.inv_iff.2 ⟨hm.congr hcfg.1 hg hp ho, hf', ?_, he.congr henc hcfg htrunc hpread,
    hd.congr hdec hcfg holen hmfound htail⟩
  rw [State.OneRuns, henc, hdec]
  exact hone

theorem HostMove.keeps_inv {i : Instr} {s t : State} (h : HostMove s i t) (inv : s.Inv) : t.Inv := by
  obtain ⟨hm, hf, -, -, -⟩ := s.inv_iff.1 inv
  cases h with
  | noted note => exact note.keeps_inv inv
  | clear => exact State.inv_of_resting rfl (hm.congr rfl rfl rfl rfl) ⟨Nat.zero_le _, fun _ => ⟨rfl, rfl⟩, nofun⟩
  | startEnc cmd idle clean grid payload =>
    obtain ⟨-, hd⟩ := s.busy_eq_false_iff.1 idle
    exact (State.inv_iff _).2 ⟨hm.congr rfl rfl rfl rfl, ⟨hf.legal, hf.clear, nofun⟩, fun hr => by simp [hd] at hr,
      .of_start grid payload, .of_resting hd⟩
  | startDec cmd idle clean grid =>
    obtain ⟨he, -⟩ := s.busy_eq_false_iff.1 idle
    exact (State.inv_iff _).2 ⟨hm.congr rfl rfl rfl rfl, ⟨hf.legal, hf.clear, hf.error⟩, fun hr => by simp [he] at hr,
      .of_resting he, .of_start grid⟩
  | configure idle => exact State.inv_of_resting idle (hm.congr rfl rfl rfl rfl) ⟨hf.legal, hf.clear, hf.error⟩
  | gWrite idle inside v =>
    exact State.inv_of_resting idle ⟨Mem.within_store v hm.gmem inside, hm.pmem, hm.omem⟩
      ⟨hf.legal, hf.clear, hf.error⟩
  | pWrite idle inside v =>
    exact State.inv_of_resting idle ⟨hm.gmem, Mem.within_store v hm.pmem inside, hm.omem⟩
      ⟨hf.legal, hf.clear, hf.error⟩

/-- A block after reset meets the invariant, whatever the model's own fields are. -/
theorem State.inv_resetOf (cfg : Config) (l : List Turn) (o : List Reply) (e n : Nat) :
    State.Inv { State.resetOf cfg with inbox := l, outbox := o, epoch := e, freeIx := n } :=
  State.inv_of_resting rfl ⟨Mem.within_nil _, Mem.within_nil _, Mem.within_nil _⟩
    ⟨Nat.zero_le _, fun _ => ⟨rfl, rfl⟩, nofun⟩

/-- The list of turns has no part in the invariant. -/
theorem State.Inv.with_inbox {s : State} (inv : s.Inv) (l : List Turn) : State.Inv { s with inbox := l } := by
  obtain ⟨hm, hf, hone, he, hd⟩ := s.inv_iff.1 inv
  exact (State.inv_iff _).2 ⟨hm.congr rfl rfl rfl rfl, ⟨hf.legal, hf.clear, hf.error⟩, hone,
    he.congr rfl ⟨rfl, rfl, rfl, rfl⟩ rfl fun _ => rfl, hd.congr rfl ⟨rfl, rfl, rfl, rfl⟩ rfl rfl rfl⟩

/-- Settles O39: State.reset is a block after reset. -/
theorem resetMeetsTheInvariant : Obligations.ResetMeetsTheInvariant := by
  unfold Obligations.ResetMeetsTheInvariant
  exact State.inv_resetOf _ _ _ _ _

/-- A request decodes to a transaction, which is the host's. -/
theorem hostOp_of_decodeRequest {q : Request} {i : Instr} (h : decodeRequest q = .ok i) : hostOp i = true := by
  have hformat : (encode i).format = i.format := by cases i <;> rfl
  rw [encode_of_decode_xact h] at hformat
  simp [hostOp, ← hformat, Encoded.format]

/-- Settles O40: the turn at hand is taken off, and then the host or a unit moves, or reset happens, or nothing does. -/
theorem stepKeepsTheInvariant : Obligations.StepKeepsTheInvariant := by
  unfold Obligations.StepKeepsTheInvariant
  intro s t inv h
  obtain ⟨rest, hturn⟩ := s.takeTurn_eq
  have inv' := inv.with_inbox rest
  have hcases := step_eq_next h
  rw [hturn] at hcases
  rcases hcases with ⟨q, _, i, -, hd, hx⟩ | ⟨_, -, -, hx⟩ | ⟨i, -, hsel, hx⟩ | ⟨i, -, -, hsel, hx⟩ | ⟨_, -, rfl⟩ |
    ⟨-, rfl⟩
  · exact (HostMove.of_exec (hostOp_of_decodeRequest hd) hx).keeps_inv inv'
  · exact (HostMove.of_exec rfl hx).keeps_inv inv'
  · exact (EncMove.of_exec (s := { s with inbox := rest }) ((s.encSelected_eq_ok_iff i).1 hsel) hx).keeps_inv inv'
  · exact (DecMove.of_exec (s := { s with inbox := rest }) ((s.decSelected_eq_ok_iff i).1 hsel) hx).keeps_inv inv'
  · exact State.inv_resetOf _ _ _ _ _
  · exact inv'

/-! ### A running unit is not stuck -/

/-- A running ENC that meets its part of the invariant has a row. -/
theorem State.EncOk.exists_row {s : State} (ok : s.EncOk) (hr : s.enc.state.running = true) : ∃ i, encGuard s i := by
  rcases (EncState.running_iff _).1 hr with hstate | hstate | hstate
  · have hle := (ok.validating hstate).vidx
    by_cases heq : s.enc.vidx = s.plen
    · exact ⟨.eVend, hstate, heq⟩
    · have hlt : s.enc.vidx.toNat < s.plen.toNat := lt_of_le_of_ne hle fun h => heq (BitVec.eq_of_toNat_eq h)
      by_cases hunit : (s.pmemRead s.enc.vidx.toNat).toNat ≤ 255
      · exact ⟨.eVchk, hstate, hlt, hunit⟩
      · exact ⟨.eVfail, hstate, hlt, not_le.1 hunit⟩
  · rcases Nat.eq_or_lt_of_le (ok.embedding (.inl hstate)).bidx with heq | hlt
    · exact ⟨.eComplete, hstate, heq⟩
    · exact ⟨.eFetch, hstate, hlt⟩
  · cases hexh : s.encExhausted with
    | true => exact ⟨.eTrunc, hstate, hexh⟩
    | false => exact ⟨.eWrite, hstate, hexh⟩

/-- A running DEC that meets its part of the invariant has a row. -/
theorem State.DecOk.exists_row {s : State} (ok : s.DecOk) (hr : s.dec.state.running = true) : ∃ i, decGuard s i := by
  have hstate := (DecState.running_iff _).1 hr
  rcases Nat.eq_or_lt_of_le (ok.scanning hstate).bitcnt with heq | hlt
  · have hfull := (bitcnt_eq_eight_iff _).2 heq
    by_cases hmarker : s.dec.holdv = true ∧ s.dec.hold = markerHi ∧ s.dec.sr = markerLo
    · exact ⟨.dMatch, hstate, hfull, hmarker⟩
    · exact ⟨.dByte, hstate, hfull, hmarker⟩
  · cases hexh : s.decExhausted with
    | true => exact ⟨.dFinish, hstate, hlt, hexh⟩
    | false => exact ⟨.dRead, hstate, hlt, hexh⟩

/-- A running ENC steps by a move of its own when no turn of the host comes first. -/
theorem State.EncOk.exists_step {s : State} (ok : s.EncOk) (hin : s.inbox = []) (hr : s.enc.state.running = true) :
    ∃ i t, EncMove s i t ∧ step s = exec i s := by
  obtain ⟨i, row⟩ := ok.exists_row hr
  obtain ⟨t, hmove⟩ := EncMove.exists_of_row row
  exact ⟨i, t, hmove, step_enc hin hr ((s.encSelected_eq_ok_iff i).2 row)⟩

theorem State.DecOk.exists_step {s : State} (ok : s.DecOk) (hin : s.inbox = []) (he : s.enc.state.running = false)
    (hr : s.dec.state.running = true) : ∃ i t, DecMove s i t ∧ step s = exec i s := by
  obtain ⟨i, row⟩ := ok.exists_row hr
  obtain ⟨t, hmove⟩ := DecMove.exists_of_row row
  exact ⟨i, t, hmove, step_dec hin he hr ((s.decSelected_eq_ok_iff i).2 row)⟩

/-- Settles O41: the invariant leaves a running unit exactly one row. -/
theorem runningUnitIsNeverStuck : Obligations.RunningUnitIsNeverStuck := by
  unfold Obligations.RunningUnitIsNeverStuck
  intro s inv hb hin
  obtain ⟨-, -, -, hencOk, hdecOk⟩ := s.inv_iff.1 inv
  cases he : s.enc.state.running with
  | true =>
    obtain ⟨i, t, hmove, hstep⟩ := hencOk.exists_step hin he
    exact ⟨i, t, hmove.hostOp_eq_false, hstep, hmove.exec⟩
  | false =>
    have hd : s.dec.state.running = true := (s.busy_iff.1 hb).resolve_left (by simp [he])
    obtain ⟨i, t, hmove, hstep⟩ := hdecOk.exists_step hin he hd
    exact ⟨i, t, hmove.hostOp_eq_false, hstep, hmove.exec⟩

end Sys2Proof.Machine
end

section
/-! A run of ENC (40_reference_functions.md R133 (a), 41_encoder.md R148, R149): what holds in every state of the run,
how many steps are left, and what it leaves. -/

namespace Sys2Proof.Machine

/-! ### Runs that come to rest -/

/-- If every step of a running block keeps `P` and counts `μ` down, the block comes to rest within `μ` steps, in one
state that has `P`, and stays there. -/
theorem exists_rest_of_decreasing {P : State → Prop} {μ : State → Nat} (hin : ∀ t, P t → t.inbox = [])
    (hstep : ∀ t, P t → t.busy = true → ∃ u, step t = .next u ∧ P u ∧ μ u < μ t) {s : State} (hs : P s) :
    ∃ t, P t ∧ t.busy = false ∧ ∀ k, μ s ≤ k → runSteps k s = .next t := by
  induction hn : μ s using Nat.strong_induction_on generalizing s with
  | _ n ih =>
    cases hb : s.busy with
    | false => exact ⟨s, hs, hb, fun k _ => runSteps_idle (hin s hs) hb k⟩
    | true =>
      obtain ⟨u, hu, hPu, hlt⟩ := hstep s hs hb
      obtain ⟨t, hPt, hrest, hrun⟩ := ih (μ u) (hn ▸ hlt) hPu rfl
      refine ⟨t, hPt, hrest, fun k hk => ?_⟩
      obtain ⟨k, rfl⟩ := Nat.exists_eq_succ_of_ne_zero (show k ≠ 0 by omega)
      rw [runSteps_succ_of_next hu]
      exact hrun k (by omega)

/-! ### The payload and its bits -/

/-- Bit `p` of the framed payload, as ENC fetches and shifts it out. -/
def State.streamBit (s : State) (p : Nat) : Bool := (s.frameByte (p / 8)).getLsbD (7 - p % 8)

theorem State.length_payload (s : State) : s.payload.length = s.plen.toNat := by simp [State.payload]

theorem State.length_payloadBytes (s : State) : (Ref.payloadBytes s.payload).length = s.plen.toNat := by
  rw [Ref.payloadBytes, List.length_map, s.length_payload]

theorem State.getElem_payload {s : State} {i : Nat} (h : i < s.payload.length) : s.payload[i] = s.pmemRead i := by
  simp [State.payload]

theorem State.getElem?_payload {s : State} {i : Nat} (h : i < s.plen.toNat) : s.payload[i]? = some (s.pmemRead i) := by
  rw [← s.length_payload] at h
  rw [List.getElem?_eq_getElem h, State.getElem_payload h]

/-- The byte source of ENC is the framed payload (41_encoder.md R140). -/
theorem State.getElem?_frame {s : State} {i : Nat} (h : i < s.plen.toNat + 2) :
    (Ref.frame (Ref.payloadBytes s.payload))[i]? = some (s.frameByte i) := by
  have hlen := s.length_payloadBytes
  rw [Ref.frame, State.frameByte]
  by_cases hi : i < s.plen.toNat
  · rw [if_pos hi, List.getElem?_append_left (by omega), Ref.payloadBytes, List.getElem?_map, State.getElem?_payload hi]
    rfl
  · rw [if_neg hi, List.getElem?_append_right (by omega), hlen]
    by_cases he : i = s.plen.toNat
    · simp [he]
    · obtain rfl : i = s.plen.toNat + 1 := by omega
      simp

theorem State.getElem?_stream {s : State} {p : Nat} (h : p < 8 * s.plen.toNat + 16) :
    (Ref.bitstream (Ref.payloadBytes s.payload))[p]? = some (s.streamBit p) := by
  rw [Ref.getElem?_bitstream, State.getElem?_frame (by omega)]
  rfl

/-- The payload is valid exactly when its code units are. -/
theorem State.validPayload_iff (s : State) : Ref.validPayload s.payload = true ↔ s.unitsValid s.plen.toNat := by
  simp [Ref.validPayload, State.payload, State.unitsValid]

/-- The first offending index of an invalid payload (40_reference_functions.md R121). -/
theorem State.firstBad_spec {s : State} (h : Ref.validPayload s.payload = false) :
    Ref.firstBad s.payload < s.plen.toNat ∧ 255 < (s.pmemRead (Ref.firstBad s.payload)).toNat ∧
      s.unitsValid (Ref.firstBad s.payload) := by
  have hlt : Ref.firstBad s.payload < s.payload.length := by
    rw [Ref.firstBad, List.findIdx_lt_length]
    simpa [Ref.validPayload] using h
  have hbad : 255 < (s.payload[Ref.firstBad s.payload]).toNat := of_decide_eq_true (List.findIdx_getElem (w := hlt))
  rw [State.getElem_payload hlt] at hbad
  refine ⟨s.length_payload ▸ hlt, hbad, fun j hj => ?_⟩
  have hgood := List.not_of_lt_findIdx hj
  rw [State.getElem_payload] at hgood
  exact not_lt.1 (of_decide_eq_false hgood)

theorem State.getElem?_grid {s : State} {p : Nat} (h : p < s.channels) : s.grid.ch[p]? = some (s.gmemRead p) := by
  simp [State.grid, h]

theorem State.length_grid (s : State) : s.grid.ch.length = s.channels := by simp [State.grid]

/-! ### What every state of a run has -/

theorem State.SameRest.trans {s t u : State} (h : s.SameRest t) (h' : t.SameRest u) : s.SameRest u := by
  obtain ⟨⟨h1, h2, h3, h4⟩, h5, h6, h7, h8, h9⟩ := h
  obtain ⟨⟨h1', h2', h3', h4'⟩, h5', h6', h7', h8', h9'⟩ := h'
  exact ⟨⟨h1'.trans h1, h2'.trans h2, h3'.trans h3, h4'.trans h4⟩, h5'.trans h5, h6'.trans h6, h7'.trans h7,
    h8'.trans h8, h9'.trans h9⟩

theorem State.SameRest.pmemRead_eq {s t : State} (h : s.SameRest t) (a : Nat) : t.pmemRead a = s.pmemRead a :=
  State.pmemRead_congr h.pmem h.host.2.2.1 a

/-- `t` stands in a run of ENC that was started in `s`: all that ENC does not touch is as in `s`. -/
structure State.EncFrame (s t : State) : Prop where
  rest : s.SameRest t
  dec : t.dec = s.dec
  omem : t.omem = s.omem
  ok : t.EncOk

theorem State.EncFrame.move {s t u : State} {i : Instr} (h : s.EncFrame t) (m : EncMove t i u) : s.EncFrame u := by
  obtain ⟨hdec, homem, -⟩ := m.dec_frame
  exact ⟨h.rest.trans m.sameRest, hdec.trans h.dec, homem.trans h.omem, m.keeps_encOk h.ok⟩

/-- The state an accepted ENC_START leaves. -/
def State.encStarted (s : State) : State := { s with enc := { EncUnit.reset with state := .validate }, trunc := false }

theorem State.EncFrame.start {s : State} (hn : s.channels ≤ s.cfg.gmax.val) (hp : s.plen.toNat ≤ s.cfg.pmax.val) :
    s.EncFrame s.encStarted :=
  ⟨⟨⟨rfl, rfl, rfl, rfl⟩, rfl, rfl, rfl, rfl, rfl⟩, rfl, rfl, .of_start hn hp⟩

theorem exec_encStart_of_fits {s : State} (hb : s.busy = false) (hc : s.cause = 0#4)
    (hn : s.channels ≤ s.cfg.gmax.val) (hp : s.plen.toNat ≤ s.cfg.pmax.val) :
    exec .encStart s = .next s.encStarted := (encStartPutsEncInValidate s hb hc).1 hn hp

/-- With DEC at rest, a run of ENC goes on by ENC's moves. -/
theorem State.EncFrame.exists_step {s t : State} (h : s.EncFrame t) (hin : s.inbox = [])
    (hd : s.dec.state.running = false) (hb : t.busy = true) : ∃ i u, EncMove t i u ∧ step t = .next u := by
  have hr : t.enc.state.running = true := (t.busy_iff.1 hb).resolve_right (by simp [h.dec, hd])
  obtain ⟨i, u, m, hstep⟩ := h.ok.exists_step (h.rest.host.1.trans hin) hr
  exact ⟨i, u, m, hstep.trans m.exec⟩

/-! ### A run of an invalid payload -/

/-- `t` stands in a run of ENC over an invalid payload: it validates, or it has found the first offending unit. -/
structure State.RejectRun (s t : State) : Prop where
  frame : s.EncFrame t
  gmem : t.gmem = s.gmem
  phase : (t.enc.state = .validate ∧ t.cause = 0#4) ∨
    (t.enc.state = .error ∧ t.cause = 1#4 ∧ t.faddr.toNat = Ref.firstBad s.payload ∧
      t.fdata = s.pmemRead (Ref.firstBad s.payload))

/-- The steps left in the run of a payload whose first offending index is `bad`. -/
def State.rejectSteps (bad : Nat) (t : State) : Nat := if t.enc.state = .validate then bad - t.enc.vidx.toNat + 1 else 0

/-- VIDX does not pass the first offending index, and E_VCHK is not selected there. -/
theorem State.RejectRun.vidx_le {s t : State} (h : s.RejectRun t) (hbad : Ref.validPayload s.payload = false)
    (hstate : t.enc.state = .validate) : t.enc.vidx.toNat ≤ Ref.firstBad s.payload := by
  obtain ⟨-, hunit, -⟩ := State.firstBad_spec hbad
  by_contra hlt
  have := (h.frame.ok.validating hstate).checked _ (not_le.1 hlt)
  rw [h.frame.rest.pmemRead_eq] at this
  omega

theorem State.RejectRun.move {s t u : State} {i : Instr} (h : s.RejectRun t) (hbad : Ref.validPayload s.payload = false)
    (m : EncMove t i u) :
    s.RejectRun u ∧ u.rejectSteps (Ref.firstBad s.payload) < t.rejectSteps (Ref.firstBad s.payload) := by
  obtain ⟨hlt, hunit, hgood⟩ := State.firstBad_spec hbad
  have hframe := h.frame.move m
  have hplen : t.plen = s.plen := h.frame.rest.config.2.2.2
  have hread := h.frame.rest.pmemRead_eq
  obtain ⟨hstate, hcause⟩ : t.enc.state = .validate ∧ t.cause = 0#4 := by
    refine h.phase.resolve_right fun herr => ?_
    have hr := m.running
    rw [herr.1] at hr
    cases hr
  have hle := h.vidx_le hbad hstate
  have ht : t.rejectSteps (Ref.firstBad s.payload) = Ref.firstBad s.payload - t.enc.vidx.toNat + 1 := if_pos hstate
  cases m with
  | vchk row =>
    obtain ⟨-, hvlt, hvunit⟩ := row
    have hu : State.RejectRun s { t with enc := { t.enc with vidx := t.enc.vidx + 1#32 } } :=
      ⟨hframe, h.gmem, .inl ⟨hstate, hcause⟩⟩
    have hule := hu.vidx_le hbad hstate
    dsimp only at hule
    rw [toNat_add_one_of_lt hvlt] at hule
    refine ⟨hu, ?_⟩
    rw [ht, State.rejectSteps, if_pos hstate]
    dsimp only
    rw [toNat_add_one_of_lt hvlt]
    omega
  | vfail row =>
    obtain ⟨-, hvlt, hvunit⟩ := row
    have heq : t.enc.vidx.toNat = Ref.firstBad s.payload := by
      refine le_antisymm hle (not_lt.1 fun hv => ?_)
      have := hgood _ hv
      rw [hread] at hvunit
      omega
    refine ⟨⟨hframe, (t.raise_gmem _ _ _).trans h.gmem, .inr ⟨rfl, ?_⟩⟩, ?_⟩
    · obtain ⟨hc, hfa, hfd⟩ :=
        State.raise_records hcause .payloadEncoding t.enc.vidx.toNat (t.pmemRead t.enc.vidx.toNat)
      refine ⟨hc, ?_, hfd.trans ?_⟩
      · rw [hfa, BitVec.ofNat_toNat, BitVec.setWidth_eq]
        exact heq
      · rw [hread, heq]
    · rw [ht]
      exact Nat.succ_pos _
  | vend row =>
    obtain ⟨-, hv⟩ := row
    rw [hv, hplen] at hle
    omega
  | fetch row | complete row | trunc row | write row => cases hstate.symm.trans row.1

/-- Settles O47: the run ends at the first offending code unit, which E_VFAIL records. -/
theorem encoderRunRejectsABadPayload : Obligations.EncoderRunRejectsABadPayload := by
  unfold Obligations.EncoderRunRejectsABadPayload
  intro s hb hc hin hn hp hbad
  obtain ⟨hlt, -, -⟩ := State.firstBad_spec hbad
  have hstart : s.RejectRun s.encStarted := ⟨.start hn hp, rfl, .inl ⟨rfl, hc⟩⟩
  obtain ⟨-, hd⟩ := s.busy_eq_false_iff.1 hb
  obtain ⟨t, ht, hrest, hrun⟩ := exists_rest_of_decreasing (P := s.RejectRun)
    (μ := State.rejectSteps (Ref.firstBad s.payload)) (fun t ht => ht.frame.rest.host.1.trans hin)
    (fun t ht htb => by
      obtain ⟨i, u, m, hstep⟩ := ht.frame.exists_step hin hd htb
      obtain ⟨hu, hdecr⟩ := ht.move hbad m
      exact ⟨u, hstep, hu, hdecr⟩) hstart
  obtain ⟨herr, hcause, hfaddr, hfdata⟩ := ht.phase.resolve_left fun hv => by
    have hr := (t.busy_eq_false_iff.1 hrest).1
    rw [hv.1] at hr
    cases hr
  refine ⟨_, t, exec_encStart_of_fits hb hc hn hp, fun k hk => hrun k ?_, herr, hcause, hfaddr, hfdata, ?_,
    ht.frame.rest.config⟩
  · have hsteps : s.encStarted.rejectSteps (Ref.firstBad s.payload) = Ref.firstBad s.payload - 0 + 1 := if_pos rfl
    omega
  · exact State.sameMemories_of_eq ht.gmem ht.frame.rest.pmem ht.frame.omem ht.frame.rest.host.2.2.1

/-! ### A run of a valid payload -/

/-- The bits ENC embeds: the framed payload's, or as many as the grid has channels. -/
def State.embedBits (s : State) : Nat := min (8 * s.plen.toNat + 16) s.channels

/-- The steps left in a run of ENC, at most: one per code unit and one for the end of validation, one per byte of the
frame, one per bit, and one for the end. -/
def State.embedSteps (t : State) : Nat :=
  match t.enc.state with
  | .validate => t.plen.toNat - t.enc.vidx.toNat + 1 + (t.plen.toNat + 2) + t.embedBits + 1
  | .fetch => t.plen.toNat + 2 - t.enc.bidx.toNat + (t.embedBits - t.streamPos) + 1
  | .write => t.plen.toNat + 1 - t.enc.bidx.toNat + (t.embedBits - t.streamPos) + 1
  | .idle | .done | .error => 0

theorem State.embedSteps_of_validate {t : State} (h : t.enc.state = .validate) :
    t.embedSteps = t.plen.toNat - t.enc.vidx.toNat + 1 + (t.plen.toNat + 2) + t.embedBits + 1 := by
  simp only [State.embedSteps, h]

theorem State.embedSteps_of_fetch {t : State} (h : t.enc.state = .fetch) :
    t.embedSteps = t.plen.toNat + 2 - t.enc.bidx.toNat + (t.embedBits - t.streamPos) + 1 := by
  simp only [State.embedSteps, h]

theorem State.embedSteps_of_write {t : State} (h : t.enc.state = .write) :
    t.embedSteps = t.plen.toNat + 1 - t.enc.bidx.toNat + (t.embedBits - t.streamPos) + 1 := by
  simp only [State.embedSteps, h]

/-- While ENC embeds, it stands within the bits of the framed payload; within a byte, strictly. -/
theorem State.Embedding.streamPos_lt {s : State} (h : s.Embedding) (hstate : s.enc.state = .write) :
    s.streamPos < 8 * s.plen.toNat + 16 := by
  have hbidx := (h.atWrite hstate).1
  have hbitcnt : s.enc.bitcnt.toNat < 8 := s.enc.bitcnt.isLt
  rw [State.streamPos]
  omega

/-- Every move of ENC leaves fewer steps. -/
theorem EncMove.embedSteps_lt {i : Instr} {t u : State} (m : EncMove t i u) (ok : t.EncOk) :
    u.embedSteps < t.embedSteps := by
  cases m with
  | vchk row =>
    obtain ⟨hstate, hlt, -⟩ := row
    refine lt_of_eq_of_lt (State.embedSteps_of_validate hstate) ?_
    rw [State.embedSteps_of_validate hstate]
    change t.plen.toNat - (t.enc.vidx + 1#32).toNat + 1 + (t.plen.toNat + 2) + t.embedBits + 1 < _
    rw [toNat_add_one_of_lt hlt]
    omega
  | vfail row =>
    rw [State.embedSteps_of_validate row.1]
    exact Nat.succ_pos _
  | vend row =>
    refine lt_of_eq_of_lt (State.embedSteps_of_fetch rfl) ?_
    rw [State.embedSteps_of_validate row.1]
    change t.plen.toNat + 2 - t.enc.bidx.toNat + (t.embedBits - t.streamPos) + 1 < _
    omega
  | fetch row =>
    obtain ⟨hstate, hlt⟩ := row
    refine lt_of_eq_of_lt (State.embedSteps_of_write rfl) ?_
    rw [State.embedSteps_of_fetch hstate]
    change t.plen.toNat + 1 - t.enc.bidx.toNat + (t.embedBits - t.streamPos) + 1 < _
    omega
  | complete row =>
    rw [State.embedSteps_of_fetch row.1]
    exact Nat.succ_pos _
  | trunc row =>
    rw [State.embedSteps_of_write row.1]
    exact Nat.succ_pos _
  | write row =>
    obtain ⟨hstate, hopen⟩ := row
    have hemb := ok.embedding (.inr hstate)
    obtain ⟨hlt, -⟩ := hemb.atWrite hstate
    have hpos : t.streamPos < t.embedBits := lt_min (hemb.streamPos_lt hstate) (hemb.addr_eq hopen).2
    have hbits : t.embedBits = min (8 * t.plen.toNat + 16) t.channels := rfl
    have hnext := EncUnit.afterWrite_streamPos t.width (e := t.enc) (by omega)
    rw [← State.streamPos] at hnext
    rw [State.embedSteps_of_write hstate]
    by_cases h7 : t.enc.bitcnt = 7#3
    case pos =>
      obtain ⟨hbitcnt', -, hstate'⟩ := EncUnit.afterWrite_of_last t.width h7
      refine lt_of_eq_of_lt (State.embedSteps_of_fetch hstate') ?_
      change t.plen.toNat + 2 - (t.enc.afterWrite t.width).bidx.toNat + (t.embedBits -
        (8 * (t.enc.afterWrite t.width).bidx.toNat + (t.enc.afterWrite t.width).bitcnt.toNat)) + 1 < _
      have hfull : t.streamPos = 8 * t.enc.bidx.toNat + 7 := by rw [State.streamPos, h7]; rfl
      rw [hbitcnt'] at hnext ⊢
      simp only [BitVec.toNat_ofNat] at hnext ⊢
      omega
    case neg =>
      obtain ⟨-, hbidx', hstate'⟩ := EncUnit.afterWrite_of_inner t.width h7
      refine lt_of_eq_of_lt (State.embedSteps_of_write (hstate'.trans hstate)) ?_
      change t.plen.toNat + 1 - (t.enc.afterWrite t.width).bidx.toNat + (t.embedBits -
        (8 * (t.enc.afterWrite t.width).bidx.toNat + (t.enc.afterWrite t.width).bitcnt.toNat)) + 1 < _
      rw [hbidx'] at hnext ⊢
      omega

/-- `t` stands in a run of ENC over a valid payload, started in `s`: the bits written so far are in the grid, and when
the run has ended they are all that fit. -/
structure State.EmbedRun (s t : State) : Prop where
  frame : s.EncFrame t
  clean : t.cause = s.cause
  alive : t.enc.state.running = true ∨ t.enc.state = .done
  grid : ∀ a, t.gmemRead a = if a < t.streamPos then Ref.setLsb (s.gmemRead a) (s.streamBit a) else s.gmemRead a
  ended : t.enc.state = .done → t.streamPos = s.embedBits ∧ t.trunc = decide (s.channels < 8 * s.plen.toNat + 16)

/-- The bit in SR[7] while a byte is written is the bitstream's at the position of ENC (41_encoder.md R148 (d)). -/
theorem State.Embedding.top_bit {t : State} (h : t.Embedding) (hstate : t.enc.state = .write) :
    t.enc.sr.getLsbD 7 = t.streamBit t.streamPos := by
  have hsr := (h.atWrite hstate).2
  have hbitcnt : t.enc.bitcnt.toNat < 8 := t.enc.bitcnt.isLt
  have hdiv : t.streamPos / 8 = t.enc.bidx.toNat := by rw [State.streamPos]; omega
  have hmod : t.streamPos % 8 = t.enc.bitcnt.toNat := by rw [State.streamPos]; omega
  have hle : ¬7 < t.enc.bitcnt.toNat := by omega
  rw [State.streamBit, hdiv, hmod, hsr, BitVec.getLsbD_shiftLeft]
  simp [hle]

section Move
variable {s t u : State} (h : s.EmbedRun t)
include h

theorem State.EmbedRun.plen_eq : t.plen = s.plen := h.frame.rest.config.2.2.2

theorem State.EmbedRun.channels_eq : t.channels = s.channels := State.channels_congr h.frame.rest.config

/-- E_COMPLETE ends the run with the whole bitstream written. -/
theorem State.EmbedRun.complete (row : encGuard t .eComplete) :
    t.streamPos = s.embedBits ∧ t.trunc = decide (s.channels < 8 * s.plen.toNat + 16) := by
  obtain ⟨hstate, hbidx⟩ := row
  have hemb := h.frame.ok.embedding (.inl hstate)
  have hle := hemb.streamPos_le
  have htrunc := (h.frame.ok.fits ((EncState.running_iff _).2 (.inr (.inl hstate)))).2.2
  have hpos : t.streamPos = 8 * s.plen.toNat + 16 := by
    rw [State.streamPos, hemb.atFetch hstate, hbidx, h.plen_eq]
    simp only [BitVec.toNat_ofNat]
    omega
  rw [h.channels_eq] at hle
  refine ⟨?_, ?_⟩
  · rw [State.embedBits]
    omega
  · rw [htrunc, eq_comm, decide_eq_false_iff_not]
    omega

/-- E_TRUNC ends the run with the grid full and bits left over. -/
theorem State.EmbedRun.truncate (row : encGuard t .eTrunc) :
    t.streamPos = s.embedBits ∧ s.channels < 8 * s.plen.toNat + 16 := by
  obtain ⟨hstate, hexh⟩ := row
  have hemb := h.frame.ok.embedding (.inr hstate)
  have hlt := hemb.streamPos_lt hstate
  have hpos : t.streamPos = s.channels := by
    rw [hemb.together, ← h.channels_eq]
    exact (Cursor.pos_eq_iff hemb.cursor).2 hexh
  rw [h.plen_eq] at hlt
  rw [State.embedBits]
  omega

/-- E_WRITE puts the next bit of the bitstream into the next channel. -/
theorem State.EmbedRun.grid_of_write (m : EncMove t .eWrite u) (a : Nat) :
    u.gmemRead a = if a < u.streamPos then Ref.setLsb (s.gmemRead a) (s.streamBit a) else s.gmemRead a := by
  have hread := gmemRead_of_eWrite m.exec a
  obtain ⟨hstate, hopen⟩ := m.row
  have hemb := h.frame.ok.embedding (.inr hstate)
  have hbit : t.streamBit t.streamPos = s.streamBit t.streamPos := by
    rw [State.streamBit, State.streamBit, State.frameByte_congr h.plen_eq h.frame.rest.pmemRead_eq]
  have hnext : u.streamPos = t.streamPos + 1 := by
    have hlt := (hemb.atWrite hstate).1
    cases m with
    | write => exact EncUnit.afterWrite_streamPos t.width (e := t.enc) (by omega)
  rw [hread, (hemb.addr_eq hopen).1, hemb.top_bit hstate, hbit, h.grid, h.grid, hnext]
  rcases lt_trichotomy a t.streamPos with hlt | rfl | hgt
  · rw [if_neg hlt.ne, if_pos hlt, if_pos (Nat.lt_succ_of_lt hlt)]
  · rw [if_pos rfl, if_neg (lt_irrefl _), if_pos (Nat.lt_succ_self _)]
  · rw [if_neg hgt.ne', if_neg hgt.not_gt, if_neg (Nat.not_lt_of_le hgt)]

end Move

theorem State.EmbedRun.move {s t u : State} {i : Instr} (h : s.EmbedRun t) (valid : s.unitsValid s.plen.toNat)
    (m : EncMove t i u) : s.EmbedRun u := by
  have hframe := h.frame.move m
  have hmove := m
  cases m with
  | vchk row =>
    exact ⟨hframe, h.clean, .inl hmove.running, h.grid, fun hd => by cases row.1.symm.trans hd⟩
  | vfail row =>
    obtain ⟨-, hlt, hunit⟩ := row
    rw [h.plen_eq] at hlt
    rw [h.frame.rest.pmemRead_eq] at hunit
    exact absurd (valid _ hlt) (not_le.2 hunit)
  | vend | fetch => exact ⟨hframe, h.clean, .inl rfl, h.grid, nofun⟩
  | complete row => exact ⟨hframe, h.clean, .inr rfl, h.grid, fun _ => h.complete row⟩
  | trunc row =>
    obtain ⟨hpos, hlt⟩ := h.truncate row
    exact ⟨hframe, h.clean, .inr rfl, h.grid, fun _ => ⟨hpos, (decide_eq_true hlt).symm⟩⟩
  | write row =>
    have hrun := EncUnit.afterWrite_state t.width row.1
    refine ⟨hframe, h.clean, .inl ((EncState.running_iff _).2 (.inr hrun)), h.grid_of_write hmove, fun hd => ?_⟩
    rcases hrun with hrun | hrun
    all_goals cases hrun.symm.trans hd

/-- When the run has ended, the grid is the encoded one. -/
theorem State.EmbedRun.grid_eq {s t : State} (h : s.EmbedRun t) (hdone : t.enc.state = .done) :
    t.grid = Ref.encodeGrid s.grid (Ref.payloadBytes s.payload) := by
  obtain ⟨hcfg, hw, hh, hl⟩ := h.frame.rest.config
  have hchannels : t.channels = s.channels := State.channels_congr h.frame.rest.config
  obtain ⟨hpos, -⟩ := h.ended hdone
  have hch : t.grid.ch = (Ref.encodeGrid s.grid (Ref.payloadBytes s.payload)).ch := by
    refine List.ext_getElem? fun p => ?_
    by_cases hp : p < s.channels
    case neg =>
      rw [List.getElem?_eq_none, List.getElem?_eq_none]
      · rw [Ref.length_encodeGrid, s.length_grid]; omega
      · rw [t.length_grid]; omega
    case pos =>
      rw [State.getElem?_grid (hchannels ▸ hp), h.grid, hpos, State.embedBits]
      by_cases hbits : p < 8 * s.plen.toNat + 16
      · rw [if_pos (lt_min hbits hp), Ref.getElem?_encodeGrid, State.getElem?_grid hp, State.getElem?_stream hbits]
        rfl
      · rw [if_neg (fun hlt => hbits (lt_of_lt_of_le hlt (min_le_left _ _))),
          Ref.getElem?_encodeGrid_of_le (by rw [s.length_payloadBytes]; omega), State.getElem?_grid hp]
  have hwidth : t.grid.width = s.grid.width := congrArg BitVec.toNat hw
  have hheight : t.grid.height = s.grid.height := congrArg BitVec.toNat hh
  rw [Ref.encodeGrid, Ref.Grid.mk.injEq]
  exact ⟨hwidth, hheight, hch⟩

/-- The whole run over a valid payload: it ends within `embedSteps` steps, in DONE. -/
theorem exists_embedRun {s : State} (hb : s.busy = false) (hin : s.inbox = []) (hn : s.channels ≤ s.cfg.gmax.val)
    (hp : s.plen.toNat ≤ s.cfg.pmax.val) (hvalid : Ref.validPayload s.payload = true) :
    ∃ t, s.EmbedRun t ∧ t.busy = false ∧ t.enc.state = .done ∧
      ∀ k, 2 * s.plen.toNat + 4 + min (8 * s.plen.toNat + 16) s.channels ≤ k → runSteps k s.encStarted = .next t := by
  obtain ⟨-, hd⟩ := s.busy_eq_false_iff.1 hb
  have hstart : s.EmbedRun s.encStarted :=
    ⟨.start hn hp, rfl, .inl rfl, fun a => (if_neg (Nat.not_lt_zero a)).symm, nofun⟩
  obtain ⟨t, ht, hrest, hrun⟩ := exists_rest_of_decreasing (P := s.EmbedRun) (μ := State.embedSteps)
    (fun t ht => ht.frame.rest.host.1.trans hin)
    (fun t ht htb => by
      obtain ⟨i, u, m, hstep⟩ := ht.frame.exists_step hin hd htb
      exact ⟨u, hstep, ht.move (s.validPayload_iff.1 hvalid) m, m.embedSteps_lt ht.frame.ok⟩) hstart
  have hdone := ht.alive.resolve_left (by simp [(t.busy_eq_false_iff.1 hrest).1])
  refine ⟨t, ht, hrest, hdone, fun k hk => hrun k ?_⟩
  have hsteps : s.encStarted.embedSteps =
      s.plen.toNat - 0 + 1 + (s.plen.toNat + 2) + min (8 * s.plen.toNat + 16) s.channels + 1 := rfl
  omega

/-- Settles O46: the run ends in DONE with every bit that fits written to its channel. -/
theorem encoderRunEmbedsThePayload : Obligations.EncoderRunEmbedsThePayload := by
  unfold Obligations.EncoderRunEmbedsThePayload
  intro s hb hc hin hn hp hvalid
  obtain ⟨t, ht, -, hdone, hrun⟩ := exists_embedRun hb hin hn hp hvalid
  obtain ⟨hpos, htrunc⟩ := ht.ended hdone
  refine ⟨_, t, exec_encStart_of_fits hb hc hn hp, hrun, hdone, ht.grid_eq hdone, fun a ha => ?_,
    ht.frame.rest.pmemRead_eq, State.omemRead_congr ht.frame.omem ht.frame.rest.host.2.2.1, ht.frame.rest.config, ?_,
    ht.clean.trans hc⟩
  · rw [ht.grid, hpos, if_neg]
    exact fun hlt => absurd (lt_of_lt_of_le hlt (min_le_right _ _)) (not_lt.2 ha)
  · rw [htrunc, Ref.fits, s.length_payloadBytes, s.length_grid, ← decide_not]
    exact decide_eq_decide.2 not_le.symm

end Sys2Proof.Machine
end

section
/-! The scan as DEC performs it, byte by byte (40_reference_functions.md R129, R130): the bits of a whole byte, and what
the scan of all bytes is once it stands at one of them. -/

namespace Sys2Proof.Ref

/-- The bits of whole byte `n`, most significant first. -/
theorem getElem?_groups {l : List Bool} {n : Nat} (h : 8 * n + 8 ≤ l.length) :
    ∃ b, (groups l)[n]? = some b ∧ ∀ j < 8, l[8 * n + j]? = some (b.getLsbD (7 - j)) := by
  obtain ⟨b, rest, rfl⟩ := exists_bits8_append (l := l) (by omega)
  induction n generalizing b rest with
  | zero =>
    refine ⟨b, by rw [groups_bits8_append]; rfl, fun j hj => ?_⟩
    interval_cases j <;> rfl
  | succ n ih =>
    rw [List.length_append, length_bits8] at h
    obtain ⟨b', rest', hrest⟩ := exists_bits8_append (l := rest) (by omega)
    obtain ⟨c, hc, hbits⟩ := ih b' rest' (by rw [← hrest]; omega)
    rw [← hrest] at hc hbits
    refine ⟨c, by rw [groups_bits8_append]; exact hc, fun j hj => ?_⟩
    rw [List.getElem?_append_right (by rw [length_bits8]; omega), length_bits8, ← hbits j hj]
    congr 1
    omega

/-- The scan of `l` has passed `k` bytes and goes on at the next one. -/
structure ScanAt (l : List Byte) (k : Nat) : Prop where
  bytes : scan l = l.take k ++ scan (l.drop k)
  found : scanFound l = scanFound (l.drop k)
  dropped : scanDropped l = scanDropped (l.drop k)

theorem scanDropped_cons_cons (b c : Byte) (l : List Byte) :
    scanDropped (b :: c :: l) = if b = markerHi ∧ c = markerLo then false else scanDropped (c :: l) := by
  rw [scanDropped]

theorem drop_of_getElem? {l : List Byte} {k : Nat} {b : Byte} (h : l[k]? = some b) :
    l.drop k = b :: l.drop (k + 1) := by
  obtain ⟨hk, rfl⟩ := List.getElem?_eq_some_iff.1 h
  exact List.drop_eq_getElem_cons hk

theorem ScanAt.zero (l : List Byte) : ScanAt l 0 := ⟨rfl, rfl, rfl⟩

section Window
variable {l : List Byte} {k : Nat} {b c : Byte} (h : ScanAt l k) (hb : l[k]? = some b)
include h hb

/-- The window holds no marker: the scan passes the first of its bytes. -/
theorem ScanAt.succ (hc : l[k + 1]? = some c) (hne : ¬(b = markerHi ∧ c = markerLo)) : ScanAt l (k + 1) := by
  obtain ⟨hbytes, hfound, hdropped⟩ := h
  rw [drop_of_getElem? hb, drop_of_getElem? hc] at hbytes hfound hdropped
  rw [scan_cons_cons, if_neg hne, ← drop_of_getElem? hc] at hbytes
  rw [scanFound_cons_cons, if_neg hne, ← drop_of_getElem? hc] at hfound
  rw [scanDropped_cons_cons, if_neg hne, ← drop_of_getElem? hc] at hdropped
  refine ⟨?_, hfound, hdropped⟩
  rw [hbytes, List.take_add_one, hb, List.append_assoc]
  rfl

/-- The window holds the marker: the scan ends before it. -/
theorem ScanAt.of_marker (hc : l[k + 1]? = some c) (hmarker : b = markerHi ∧ c = markerLo) :
    scan l = l.take k ∧ scanFound l = true ∧ scanDropped l = false := by
  obtain ⟨hbytes, hfound, hdropped⟩ := h
  rw [drop_of_getElem? hb, drop_of_getElem? hc] at hbytes hfound hdropped
  rw [scan_cons_cons, if_pos hmarker, List.append_nil] at hbytes
  rw [scanFound_cons_cons, if_pos hmarker] at hfound
  rw [scanDropped_cons_cons, if_pos hmarker] at hdropped
  exact ⟨hbytes, hfound, hdropped⟩

/-- One byte is left: the tail rule. -/
theorem ScanAt.of_tail (hlen : l.length = k + 1) :
    scan l = (if b = markerHi then l.take k else l.take (k + 1)) ∧ scanFound l = false ∧
      scanDropped l = decide (b = markerHi) := by
  obtain ⟨hbytes, hfound, hdropped⟩ := h
  rw [drop_of_getElem? hb, List.drop_of_length_le hlen.le] at hbytes hfound hdropped
  refine ⟨?_, hfound, hdropped⟩
  rw [hbytes, scan, List.take_add_one, hb]
  split
  · exact List.append_nil _
  · rfl

end Window

end Sys2Proof.Ref
end

section
/-! A run of DEC (40_reference_functions.md R133 (b), 42_decoder.md R175, R176) and the round trip on the machine. -/

namespace Sys2Proof.Machine

/-! ### The whole bytes of the grid -/

theorem State.length_wholeBytes (s : State) : s.wholeBytes.length = s.channels / 8 := by
  rw [State.wholeBytes, Ref.length_wholeBytes, s.length_grid]

/-- Whole byte `n` is the byte whose bits are the LSBs of its eight channels. -/
theorem State.getElem?_wholeBytes {s : State} {n : Nat} (h : 8 * n + 8 ≤ s.channels) {b : Byte}
    (hb : ∀ j < 8, b.getLsbD j = (s.gmemRead (8 * n + 7 - j)).getLsbD 0) : s.wholeBytes[n]? = some b := by
  obtain ⟨c, hc, hbits⟩ := Ref.getElem?_groups (l := Ref.lsbs s.grid) (n := n)
    (by rw [Ref.lsbs, List.length_map, s.length_grid]; exact h)
  have hcb : c = b := by
    refine BitVec.eq_of_getLsbD_eq fun j hj => ?_
    have hbit := hbits (7 - j) (by omega)
    rw [Ref.lsbs, List.getElem?_map, State.getElem?_grid (by omega), show 7 - (7 - j) = j by omega,
      ← Nat.add_sub_assoc (by omega)] at hbit
    exact (Option.some.inj hbit).symm.trans (hb j hj).symm
  rw [State.wholeBytes, hc, hcb]

/-! ### What every state of a run has -/

/-- `t` stands in a run of DEC that was started in `s`: all that DEC does not touch is as in `s`. -/
structure State.DecFrame (s t : State) : Prop where
  rest : s.SameRest t
  enc : t.enc = s.enc
  gmem : t.gmem = s.gmem
  fault : s.SameFault t
  ok : t.DecOk

theorem State.DecFrame.move {s t u : State} {i : Instr} (h : s.DecFrame t) (m : DecMove t i u) : s.DecFrame u := by
  obtain ⟨henc, hgmem, -, hcause, hfaddr, hfdata⟩ := m.enc_frame
  obtain ⟨hcause', hfaddr', hfdata'⟩ := h.fault
  exact ⟨h.rest.trans m.sameRest, henc.trans h.enc, hgmem.trans h.gmem,
    ⟨hcause.trans hcause', hfaddr.trans hfaddr', hfdata.trans hfdata'⟩, m.keeps_decOk h.ok⟩

theorem State.DecFrame.gmemRead_eq {s t : State} (h : s.DecFrame t) (a : Nat) : t.gmemRead a = s.gmemRead a :=
  State.gmemRead_congr h.gmem h.rest.host.2.2.1 a

/-- The state an accepted DEC_START leaves. -/
def State.decStarted (s : State) : State :=
  { s with dec := { DecUnit.reset with state := .scanning }, olen := 0#32, mfound := false, taildrop := false }

theorem State.DecFrame.start {s : State} (hn : s.channels ≤ s.cfg.gmax.val) : s.DecFrame s.decStarted :=
  ⟨⟨⟨rfl, rfl, rfl, rfl⟩, rfl, rfl, rfl, rfl, rfl⟩, rfl, rfl, ⟨rfl, rfl, rfl⟩, .of_start hn⟩

theorem exec_decStart_of_fits {s : State} (hb : s.busy = false) (hc : s.cause = 0#4)
    (hn : s.channels ≤ s.cfg.gmax.val) : exec .decStart s = .next s.decStarted :=
  (decStartPutsDecInScanning s hb hc).1 hn

/-- With ENC at rest, a run of DEC goes on by DEC's moves. -/
theorem State.DecFrame.exists_step {s t : State} (h : s.DecFrame t) (hin : s.inbox = [])
    (he : s.enc.state.running = false) (hb : t.busy = true) : ∃ i u, DecMove t i u ∧ step t = .next u := by
  have he' : t.enc.state.running = false := h.enc ▸ he
  have hr : t.dec.state.running = true := (t.busy_iff.1 hb).resolve_left (by simp [he'])
  obtain ⟨i, u, m, hstep⟩ := h.ok.exists_step (h.rest.host.1.trans hin) he' hr
  exact ⟨i, u, m, hstep.trans m.exec⟩

/-! ### The steps left -/

/-- The whole bytes DEC has read: those delivered, and the one held. -/
def State.bytesRead (t : State) : Nat := t.dec.oidx.toNat + t.dec.holdv.toNat

theorem State.bytesRead_of_held {t : State} (h : t.dec.holdv = true) : t.bytesRead = t.dec.oidx.toNat + 1 := by
  rw [State.bytesRead, h]; rfl

theorem State.bytesRead_of_empty {t : State} (h : t.dec.holdv = false) : t.bytesRead = t.dec.oidx.toNat := by
  rw [State.bytesRead, h]; rfl

/-- The bits DEC has read. -/
def State.bitsRead (t : State) : Nat := 8 * t.bytesRead + t.dec.bitcnt.toNat

/-- The steps left in a run of DEC, at most: one per bit, one per whole byte, and one for the end. -/
def State.scanSteps (t : State) : Nat :=
  if t.dec.state = .scanning then (t.channels - t.bitsRead) + (t.channels / 8 - t.bytesRead) + 1 else 0

theorem State.scanSteps_of_scanning {t : State} (h : t.dec.state = .scanning) :
    t.scanSteps = (t.channels - t.bitsRead) + (t.channels / 8 - t.bytesRead) + 1 := if_pos h

/-- Every move of DEC leaves fewer steps. -/
theorem DecMove.scanSteps_lt {i : Instr} {t u : State} (m : DecMove t i u) (ok : t.DecOk) :
    u.scanSteps < t.scanSteps := by
  have hstate := (DecState.running_iff _).1 m.running
  have hscan := ok.scanning hstate
  have hbits : t.bitsRead = 8 * t.bytesRead + t.dec.bitcnt.toNat := rfl
  rw [State.scanSteps_of_scanning hstate]
  cases m with
  | read row =>
    obtain ⟨-, hlt, hopen⟩ := row
    have hin : t.bitsRead < t.channels := (hscan.addr_eq hopen).2
    refine lt_of_eq_of_lt (State.scanSteps_of_scanning hstate) ?_
    change t.channels - (8 * t.bytesRead + (t.dec.bitcnt + 1#4).toNat) + (t.channels / 8 - t.bytesRead) + 1 < _
    rw [toNat_bitcnt_add_one hlt]
    omega
  | firstByte row empty =>
    have hle : t.bitsRead ≤ t.channels := hscan.read_le
    have hfull := (bitcnt_eq_eight_iff _).1 row.2.1
    have hzero := State.bytesRead_of_empty empty
    refine lt_of_eq_of_lt (State.scanSteps_of_scanning hstate) ?_
    change t.channels - (8 * (t.dec.oidx.toNat + 1) + 0) + (t.channels / 8 - (t.dec.oidx.toNat + 1)) + 1 < _
    omega
  | nextByte row held =>
    have hle : t.bitsRead ≤ t.channels := hscan.read_le
    have hfull := (bitcnt_eq_eight_iff _).1 row.2.1
    have hone := State.bytesRead_of_held held
    obtain ⟨-, hoidx⟩ := ok.oidx_lt hstate held
    refine lt_of_eq_of_lt (State.scanSteps_of_scanning hstate) ?_
    change t.channels - (8 * ((t.dec.oidx + 1#32).toNat + 1) + 0) +
      (t.channels / 8 - ((t.dec.oidx + 1#32).toNat + 1)) + 1 < _
    rw [hoidx]
    omega
  | found | finishEmpty | finishDropped | finishDelivered => exact Nat.succ_pos _

/-! ### What a run delivers -/

/-- DEC stands in the scan of the grid of `s`: what is shifted in, held and delivered is the grid's, and the scan has
passed the bytes delivered. -/
structure State.ScanPoint (s t : State) : Prop where
  shifted : ∀ j < t.dec.bitcnt.toNat, t.dec.sr.getLsbD j = (s.gmemRead (t.bitsRead - 1 - j)).getLsbD 0
  held : t.dec.holdv = true → s.wholeBytes[t.dec.oidx.toNat]? = some t.dec.hold
  delivered : ∀ j < t.dec.oidx.toNat, s.wholeBytes[j]? = some (t.omemRead j)
  scanned : Ref.ScanAt s.wholeBytes t.dec.oidx.toNat

/-- The results are those of the scan of the grid of `s`. -/
structure State.ScanResults (s t : State) : Prop where
  decoded : t.decoded = Ref.scan s.wholeBytes
  mfound : t.mfound = Ref.scanFound s.wholeBytes
  taildrop : t.taildrop = Ref.scanDropped s.wholeBytes

/-- `t` stands in a run of DEC started in `s`: in the scan, or at its end. -/
structure State.ScanRun (s t : State) : Prop where
  frame : s.DecFrame t
  phase : (t.dec.state = .scanning ∧ s.ScanPoint t) ∨ (t.dec.state = .done ∧ s.ScanResults t)

/-- What OMEM holds up to OLEN, where those elements are the first of a list. -/
theorem State.decoded_eq_take {t : State} {l : List Byte} (h : ∀ j < t.olen.toNat, l[j]? = some (t.omemRead j)) :
    t.decoded = l.take t.olen.toNat := by
  refine List.ext_getElem? fun j => ?_
  by_cases hj : j < t.olen.toNat
  · rw [List.getElem?_take_of_lt hj, h j hj]
    simp [State.decoded, hj]
  · rw [List.getElem?_take_eq_none (not_lt.1 hj)]
    simp [State.decoded, not_lt.1 hj]

/-- What D_READ shifts in, bit by bit. -/
theorem getLsbD_shiftIn (sr : Byte) (b : Bool) :
    ((sr <<< 1) ||| (BitVec.ofBool b).setWidth 8).getLsbD 0 = b ∧
      ∀ j < 7, ((sr <<< 1) ||| (BitVec.ofBool b).setWidth 8).getLsbD (j + 1) = sr.getLsbD j := by
  revert sr b
  decide

/-- A full SR is the next whole byte of the grid. -/
theorem State.ScanPoint.sr_eq {s t : State} (hpoint : s.ScanPoint t) (hframe : s.DecFrame t)
    (hstate : t.dec.state = .scanning) (hfull : t.dec.bitcnt = 8#4) : s.wholeBytes[t.bytesRead]? = some t.dec.sr := by
  have h8 := (bitcnt_eq_eight_iff _).1 hfull
  have hbits : t.bitsRead = 8 * t.bytesRead + 8 := by rw [State.bitsRead, h8]
  have hle : t.bitsRead ≤ t.channels := (hframe.ok.scanning hstate).read_le
  rw [State.channels_congr hframe.rest.config, hbits] at hle
  refine State.getElem?_wholeBytes hle fun j hj => ?_
  rw [hpoint.shifted j (h8.symm ▸ hj), hbits]
  congr 2

/-- When the grid is exhausted within a byte, every whole byte has been read. -/
theorem State.DecFrame.length_wholeBytes {s t : State} (hframe : s.DecFrame t) (row : decGuard t .dFinish) :
    s.wholeBytes.length = t.bytesRead := by
  obtain ⟨hstate, hlt, hexh⟩ := row
  have heq : t.bitsRead = t.channels := (hframe.ok.scanning hstate).read_eq hexh
  rw [State.channels_congr hframe.rest.config, State.bitsRead] at heq
  rw [State.length_wholeBytes]
  omega

/-- Delivering the held byte delivers the next whole byte of the grid. -/
theorem State.ScanPoint.delivered_succ {s t u : State} (hpoint : s.ScanPoint t) (hh : t.dec.holdv = true)
    (hm : u.omem = Mem.store t.omem t.dec.oidx.toNat t.dec.hold) (he : u.epoch = t.epoch) :
    ∀ j < t.dec.oidx.toNat + 1, s.wholeBytes[j]? = some (u.omemRead j) := by
  obtain ⟨hnew, hold⟩ := State.omemRead_of_store hm he
  intro j hj
  rcases Nat.lt_succ_iff_lt_or_eq.1 hj with hj | rfl
  · rw [hold j hj.ne]
    exact hpoint.delivered j hj
  · rw [hnew]
    exact hpoint.held hh

section Move
variable {s t u : State} (hpoint : s.ScanPoint t) (hframe : s.DecFrame t)
include hpoint hframe

/-- D_READ shifts in the grid's next bit. -/
theorem State.ScanPoint.of_read (m : DecMove t .dRead u) : u.dec.state = .scanning ∧ s.ScanPoint u := by
  cases m with
  | read row =>
    obtain ⟨hstate, hlt, hopen⟩ := row
    have haddr : t.dec.cur.addr t.width = t.bitsRead := ((hframe.ok.scanning hstate).addr_eq hopen).1
    refine ⟨hstate, fun j hj => ?_, hpoint.held, hpoint.delivered, hpoint.scanned⟩
    obtain ⟨hnew, hold⟩ := getLsbD_shiftIn t.dec.sr ((t.gmemRead (t.dec.cur.addr t.width)).getLsbD 0)
    change j < (t.dec.bitcnt + 1#4).toNat at hj
    change _ = (s.gmemRead (8 * t.bytesRead + (t.dec.bitcnt + 1#4).toNat - 1 - j)).getLsbD 0
    rw [toNat_bitcnt_add_one hlt] at hj ⊢
    cases j with
    | zero =>
      refine hnew.trans ?_
      rw [haddr, hframe.gmemRead_eq]
      rfl
    | succ j =>
      refine (hold j (by omega)).trans ((hpoint.shifted j (by omega)).trans ?_)
      rw [State.bitsRead]
      congr 2
      omega

/-- D_BYTE holds the grid's next whole byte, and the scan passes the byte it delivers. -/
theorem State.ScanPoint.of_byte (m : DecMove t .dByte u) : u.dec.state = .scanning ∧ s.ScanPoint u := by
  cases m with
  | firstByte row hempty =>
    have hsr := hpoint.sr_eq hframe row.1 row.2.1
    rw [State.bytesRead_of_empty hempty] at hsr
    exact ⟨row.1, fun j hj => absurd hj (Nat.not_lt_zero j), fun _ => hsr, hpoint.delivered, hpoint.scanned⟩
  | nextByte row hh =>
    obtain ⟨hstate, hfull, hmarker⟩ := row
    obtain ⟨-, hoidx⟩ := hframe.ok.oidx_lt hstate hh
    have hsr := hpoint.sr_eq hframe hstate hfull
    rw [State.bytesRead_of_held hh] at hsr
    have hscan := hpoint.scanned.succ (hpoint.held hh) hsr fun hw => hmarker ⟨hh, hw⟩
    have hdeliver := hpoint.delivered_succ hh
      (u := { t.omemWrite t.dec.oidx.toNat t.dec.hold with
        dec := { t.dec with oidx := t.dec.oidx + 1#32, hold := t.dec.sr, holdv := true, bitcnt := 0#4 } }) rfl rfl
    rw [← hoidx] at hsr hscan hdeliver
    exact ⟨hstate, fun j hj => absurd hj (Nat.not_lt_zero j), fun _ => hsr, hdeliver, hscan⟩

/-- D_MATCH ends the scan at the marker. -/
theorem State.ScanPoint.of_match (m : DecMove t .dMatch u) : u.dec.state = .done ∧ s.ScanResults u := by
  cases m with
  | found row =>
    obtain ⟨hstate, hfull, hh, hmarker⟩ := row
    obtain ⟨-, -, htaildrop⟩ := (hframe.ok.scanning hstate).results
    have hsr := hpoint.sr_eq hframe hstate hfull
    rw [State.bytesRead_of_held hh] at hsr
    obtain ⟨hbytes, hfound, hdropped⟩ := hpoint.scanned.of_marker (hpoint.held hh) hsr hmarker
    exact ⟨rfl, (State.decoded_eq_take hpoint.delivered).trans hbytes.symm, hfound.symm, htaildrop.trans hdropped.symm⟩

/-- D_FINISH ends the scan by the tail rule. -/
theorem State.ScanPoint.of_finish (m : DecMove t .dFinish u) : u.dec.state = .done ∧ s.ScanResults u := by
  have hlen := hframe.length_wholeBytes m.row
  have hscanning := hframe.ok.scanning m.row.1
  obtain ⟨-, hmfound, htaildrop⟩ := hscanning.results
  cases m with
  | finishEmpty row hempty =>
    have hzero : t.dec.oidx.toNat = 0 := congrArg BitVec.toNat (hscanning.first hempty)
    have hnil : s.wholeBytes = [] := by
      rw [← List.length_eq_zero_iff, hlen, State.bytesRead_of_empty hempty, hzero]
    refine ⟨rfl, (State.decoded_eq_take hpoint.delivered).trans ?_, ?_, ?_⟩
    · rw [hnil]
      exact List.take_nil
    · rw [hnil]
      exact hmfound
    · rw [hnil]
      exact htaildrop
  | finishDropped row hh tail =>
    rw [State.bytesRead_of_held hh] at hlen
    obtain ⟨hbytes, hfound, hdropped⟩ := hpoint.scanned.of_tail (hpoint.held hh) hlen
    rw [if_pos tail] at hbytes
    rw [decide_eq_true tail] at hdropped
    exact ⟨rfl, (State.decoded_eq_take hpoint.delivered).trans hbytes.symm, hmfound.trans hfound.symm, hdropped.symm⟩
  | finishDelivered row hh tail =>
    rw [State.bytesRead_of_held hh] at hlen
    obtain ⟨-, hoidx⟩ := hframe.ok.oidx_lt row.1 hh
    obtain ⟨hbytes, hfound, hdropped⟩ := hpoint.scanned.of_tail (hpoint.held hh) hlen
    have hdeliver := hpoint.delivered_succ hh
      (u := { t.omemWrite t.dec.oidx.toNat t.dec.hold with
        olen := t.dec.oidx + 1#32, dec := { t.dec with oidx := t.dec.oidx + 1#32, state := .done } }) rfl rfl
    rw [if_neg tail, ← hoidx] at hbytes
    rw [decide_eq_false tail] at hdropped
    rw [← hoidx] at hdeliver
    exact ⟨rfl, (State.decoded_eq_take hdeliver).trans hbytes.symm, hmfound.trans hfound.symm,
      htaildrop.trans hdropped.symm⟩

end Move

theorem State.ScanRun.move {s t u : State} {i : Instr} (h : s.ScanRun t) (m : DecMove t i u) : s.ScanRun u := by
  have hstate := (DecState.running_iff _).1 m.running
  obtain ⟨-, hpoint⟩ := h.phase.resolve_right fun hd => by cases hstate.symm.trans hd.1
  have hmove := m
  cases m with
  | read => exact ⟨h.frame.move hmove, .inl (hpoint.of_read h.frame hmove)⟩
  | firstByte | nextByte => exact ⟨h.frame.move hmove, .inl (hpoint.of_byte h.frame hmove)⟩
  | found => exact ⟨h.frame.move hmove, .inr (hpoint.of_match h.frame hmove)⟩
  | finishEmpty | finishDropped | finishDelivered =>
    exact ⟨h.frame.move hmove, .inr (hpoint.of_finish h.frame hmove)⟩

/-- The whole run: it ends within `scanSteps` steps, in DONE. -/
theorem exists_scanRun {s : State} (hb : s.busy = false) (hin : s.inbox = []) (hn : s.channels ≤ s.cfg.gmax.val) :
    ∃ t, s.DecFrame t ∧ s.ScanResults t ∧ t.busy = false ∧ t.dec.state = .done ∧
      ∀ k, s.channels + s.channels / 8 + 1 ≤ k → runSteps k s.decStarted = .next t := by
  obtain ⟨he, -⟩ := s.busy_eq_false_iff.1 hb
  have hstart : s.ScanRun s.decStarted :=
    ⟨.start hn, .inl ⟨rfl, fun j hj => absurd hj (Nat.not_lt_zero j), nofun, fun j hj => absurd hj (Nat.not_lt_zero j),
      .zero _⟩⟩
  obtain ⟨t, ht, hrest, hrun⟩ := exists_rest_of_decreasing (P := s.ScanRun) (μ := State.scanSteps)
    (fun t ht => ht.frame.rest.host.1.trans hin)
    (fun t ht htb => by
      obtain ⟨i, u, m, hstep⟩ := ht.frame.exists_step hin he htb
      exact ⟨u, hstep, ht.move m, m.scanSteps_lt ht.frame.ok⟩) hstart
  obtain ⟨hdone, hresults⟩ := ht.phase.resolve_left fun hs => by
    have hr := (t.busy_eq_false_iff.1 hrest).2
    rw [hs.1] at hr
    cases hr
  refine ⟨t, ht.frame, hresults, hrest, hdone, fun k hk => hrun k ?_⟩
  have hsteps : s.decStarted.scanSteps = s.channels - 0 + (s.channels / 8 - 0) + 1 := rfl
  omega

/-- Settles O48: the run ends in DONE with the results of the scan of the grid's whole bytes. -/
theorem decoderRunExtractsThePayload : Obligations.DecoderRunExtractsThePayload := by
  unfold Obligations.DecoderRunExtractsThePayload
  intro s hb hc hin hn
  obtain ⟨t, hframe, ⟨hdecoded, hmfound, htaildrop⟩, -, hdone, hrun⟩ := exists_scanRun hb hin hn
  exact ⟨_, t, exec_decStart_of_fits hb hc hn, hrun, hdone, hdecoded, hframe.gmemRead_eq, hframe.rest.pmemRead_eq,
    hframe.rest.config, hmfound, htaildrop, hframe.fault.1.trans hc⟩

/-- Settles O49: ENC's run leaves the encoded grid and DEC's run decodes it; then it is the law of the
reference functions. -/
theorem machineRoundTrip : Obligations.MachineRoundTrip := by
  unfold Obligations.MachineRoundTrip
  intro s hb hc hin hn hp hvalid hmarker hroom
  obtain ⟨t₁, ht₁, hrest₁, hdone₁, hrun₁⟩ := exists_embedRun hb hin hn hp hvalid
  have hgrid := ht₁.grid_eq hdone₁
  have hcause₁ := ht₁.clean.trans hc
  have hconfig := ht₁.frame.rest.config
  have hn₁ : t₁.channels ≤ t₁.cfg.gmax.val := by rw [State.channels_congr hconfig, hconfig.1]; exact hn
  obtain ⟨t₂, hframe₂, hresults₂, hrest₂, -, hrun₂⟩ := exists_scanRun hrest₁ (ht₁.frame.rest.host.1.trans hin) hn₁
  have htrip : Ref.decodeGrid t₁.grid = Ref.payloadBytes s.payload := by
    rw [hgrid]
    exact Ref.roundTripWithoutInnerMarker s.grid _ hmarker (by rw [s.length_payloadBytes, s.length_grid]; exact hroom)
  exact ⟨_, t₁, _, t₂, _, _, exec_encStart_of_fits hb hc hn hp, hrun₁ _ le_rfl, hrest₁,
    exec_decStart_of_fits hrest₁ hcause₁ hn₁, hrun₂ _ le_rfl, hrest₂, hresults₂.decoded.trans htrip,
    hframe₂.fault.1.trans hcause₁⟩

end Sys2Proof.Machine
end
